-- ==== Sys2Proof/Word.lean ====
section
/-! DEFINITION. The word types. Bit 0 is the least significant bit (spec/00_scope.md R8); every quantity of the block
is unsigned (R10), so no sign extension is defined. -/

namespace Sys2Proof

/-- One byte, as the environment finds it on a disk image (spec/20_memory.md R28). -/
abbrev Byte := BitVec 8

/-- The 16-bit word of either input port: `W_IN` of R6. -/
abbrev Word := BitVec 16

end Sys2Proof
end

