-- ==== Sys2Proof/Syntax.lean ====
section
/-! DEFINITION. The whole syntax: the two units, the stimulus lines of spec/30_encoding.md R51, and one constructor
of `Instr` for each row of spec/opcode_table.json. -/

namespace Sys2Proof

/-- The two units of the block (spec/00_scope.md R1). The unit that receives a word selects the operation, and
nothing else does (spec/30_encoding.md R40, decision D20). -/
inductive UnitName where
  | dosTimeDecoder
  | dosDateDecoder
deriving DecidableEq, Repr

/-- A stimulus line, R51: a word and the unit whose input port is driven with it. -/
structure Stimulus where
  unit : UnitName
  word : Word
deriving DecidableEq, Repr

/-- The two operations (R40, R46). An operand is a raw field of the word, of the width the format gives it, so
each constructor ranges over the whole raw range of the format and over nothing else. -/
inductive Instr where
  /-- DTIME, format DOS_TIME `hhhhhmmmmmmsssss` (R42). -/
  | dtime (hours : BitVec 5) (minutes : BitVec 6) (twoSec : BitVec 5)
  /-- DDATE, format DOS_DATE `yyyyyyymmmmddddd` (R43). -/
  | ddate (yearOffset : BitVec 7) (monthRaw : BitVec 4) (day : BitVec 5)
deriving DecidableEq, Repr

end Sys2Proof
end

