-- ==== Sys2Proof/Machine/Calendar.lean ====
section
/-! DEFINITION. The calendar of the date unit: spec/41_date_decoder.md R70, R74 and R76. The month is a name, so
that its length is defined for the twelve months and never asked for any other number (R76). -/

namespace Sys2Proof.Machine

/-- The calendar months, R70 and conflict C5. -/
inductive Month where
  | january | february | march | april | may | june
  | july | august | september | october | november | december
deriving DecidableEq, Repr

/-- The month of a month field, R70: 1 to 12 are January to December in order, 0, 13, 14 and 15 are no month. -/
def Month.ofNumber? : Nat → Option Month
  | 1 => some .january
  | 2 => some .february
  | 3 => some .march
  | 4 => some .april
  | 5 => some .may
  | 6 => some .june
  | 7 => some .july
  | 8 => some .august
  | 9 => some .september
  | 10 => some .october
  | 11 => some .november
  | 12 => some .december
  | _ => none

/-- The number the `month` port carries, decision D7. -/
def Month.number : Month → Nat
  | .january => 1
  | .february => 2
  | .march => 3
  | .april => 4
  | .may => 5
  | .june => 6
  | .july => 7
  | .august => 8
  | .september => 9
  | .october => 10
  | .november => 11
  | .december => 12

/-- The full Gregorian rule, R74 and conflict C3. -/
def isLeap (y : Nat) : Bool := decide (y % 4 = 0) && (decide (y % 100 ≠ 0) || decide (y % 400 = 0))

/-- The length of a month in a year, R76 (log entry 6). -/
def monthLength (y : Nat) : Month → Nat
  | .january => 31
  | .february => if isLeap y then 29 else 28
  | .march => 31
  | .april => 30
  | .may => 31
  | .june => 30
  | .july => 31
  | .august => 31
  | .september => 30
  | .october => 31
  | .november => 30
  | .december => 31

end Sys2Proof.Machine
end

