-- ==== Sys2Proof/Decode.lean ====
section
/-! DEFINITION. From bits to instructions and back: the field positions of spec/30_encoding.md R42 and R43, the byte
assembly of spec/20_memory.md R28, the decoder and the encoder. The operation comes from the unit (R40, D20); the
three-byte frame that carries the unit beside the word is the model's own (log entry 2, DESIGN CHOICE). -/

namespace Sys2Proof

/-- `dos_time[15:11]`, R44. -/
def hoursField (w : Word) : BitVec 5 := w.extractLsb' 11 5

/-- `dos_time[10:5]`, R44. -/
def minutesField (w : Word) : BitVec 6 := w.extractLsb' 5 6

/-- `dos_time[4:0]`, R44. -/
def twoSecField (w : Word) : BitVec 5 := w.extractLsb' 0 5

/-- `dos_date[15:9]`, R45. -/
def yearOffsetField (w : Word) : BitVec 7 := w.extractLsb' 9 7

/-- `dos_date[8:5]`, R45. -/
def monthField (w : Word) : BitVec 4 := w.extractLsb' 5 4

/-- `dos_date[4:0]`, R45. -/
def dayField (w : Word) : BitVec 5 := w.extractLsb' 0 5

/-- The operation that a word selects on a unit (R40): DTIME on `dos_time`, DDATE on `dos_date`. Every one of the
65536 words decodes on either unit (R25, R49). -/
def decode (st : Stimulus) : Instr :=
  match st.unit with
  | .dosTimeDecoder => .dtime (hoursField st.word) (minutesField st.word) (twoSecField st.word)
  | .dosDateDecoder => .ddate (yearOffsetField st.word) (monthField st.word) (dayField st.word)

/-- `TIMEWORD(h, m, t)` of R52. -/
def timeWord (h : BitVec 5) (m : BitVec 6) (t : BitVec 5) : Word :=
  (h.setWidth 16 <<< 11) ||| (m.setWidth 16 <<< 5) ||| t.setWidth 16

/-- `DATEWORD(o, M, d)` of R52. -/
def dateWord (o : BitVec 7) (m : BitVec 4) (d : BitVec 5) : Word :=
  (o.setWidth 16 <<< 9) ||| (m.setWidth 16 <<< 5) ||| d.setWidth 16

/-- The stimulus line of an instruction: its unit and the word its fields make. -/
def encodeStimulus : Instr → Stimulus
  | .dtime h m t => ⟨.dosTimeDecoder, timeWord h m t⟩
  | .ddate o m d => ⟨.dosDateDecoder, dateWord o m d⟩

/-- The environment's byte assembly, R28 and spec/70_reset_and_hazards.md R105: `b0` lies at the lower offset. -/
def assembleWord (b0 b1 : Byte) : Word := (b1.setWidth 16 <<< 8) ||| b0.setWidth 16

/-- Bits 7:0 of a word, the byte at the lower offset (R28). -/
def lowByte (w : Word) : Byte := w.extractLsb' 0 8

/-- Bits 15:8 of a word, the byte at the next offset (R28). -/
def highByte (w : Word) : Byte := w.extractLsb' 8 8

/-- The third byte of a frame (log entry 2). -/
def unitByte : UnitName → Byte
  | .dosTimeDecoder => 0#8
  | .dosDateDecoder => 1#8

/-- The unit that the third byte of a frame names, if any (log entry 2). -/
def unitOfByte (b : Byte) : Option UnitName :=
  if b = 0#8 then some .dosTimeDecoder else if b = 1#8 then some .dosDateDecoder else none

/-- Why bytes are no frame. No word of either unit is ever rejected (R25); only the model's own framing can fail. -/
inductive DecodeReject where
  /-- Fewer than three bytes are left. Safe: nothing is decoded. -/
  | truncated
  /-- The unit byte names neither of the two units (R46: there is no third operation). Safe: nothing is decoded. -/
  | noSuchUnit
deriving DecidableEq, Repr

/-- Reads one frame: low byte, high byte, unit byte. Answers the stimulus line and the bytes after it. -/
def stimulusOfBytes : List Byte → Except DecodeReject (Stimulus × List Byte)
  | b0 :: b1 :: u :: rest =>
    match unitOfByte u with
    | some name => .ok (⟨name, assembleWord b0 b1⟩, rest)
    | none => .error .noSuchUnit
  | _ => .error .truncated

/-- The decoder over bytes, total: the instruction of the first frame and the bytes after it, or a named reject. -/
def decodeBytes (bytes : List Byte) : Except DecodeReject (Instr × List Byte) :=
  match stimulusOfBytes bytes with
  | .ok (st, rest) => .ok (decode st, rest)
  | .error r => .error r

/-- The encoder: the frame of an instruction, its word's bytes in the disk order of R28 and its unit. -/
def encode (i : Instr) : List Byte :=
  [lowByte (encodeStimulus i).word, highByte (encodeStimulus i).word, unitByte (encodeStimulus i).unit]

/-- The three bytes of a frame held as one number, bit 0 the least significant bit of the word. -/
def tableBytes (w : Nat) : List Byte := [BitVec.ofNat 8 w, BitVec.ofNat 8 (w / 256), BitVec.ofNat 8 (w / 65536)]

/-- The stimulus line that `nbits` bits of value `w` stand for: bits 15:0 are the word and bits 23:16 the unit byte,
so a row's own 16 bits (nothing above them) name the time unit (log entry 2). -/
def tableStimulus (nbits w : Nat) : Option Stimulus :=
  if nbits ≤ 24 then
    if w < 2 ^ nbits then
      match stimulusOfBytes (tableBytes w) with
      | .ok (st, _) => some st
      | .error _ => none
    else none
  else none

/-- The instruction the decoder reads from an instruction whose bits are `w` (the host's fixed name). -/
def decodeTableWord (nbits w : Nat) : Option Instr :=
  match tableStimulus nbits w with
  | some st => some (decode st)
  | none => none

end Sys2Proof
end

