-- ==== Sys2Proof/Machine/Flags.lean ====
section
/-! DEFINITION. The block has no flags (spec/10_state.md R17): nothing is sticky, accumulated, set or cleared. What
stands here is the coding of the two outcomes on a valid output, active high (decision D5). -/

namespace Sys2Proof.Machine

/-- The valid bit of an outcome: 1 for a value, 0 for "no value" (R22, R23). -/
def validBit {α : Type} : Option α → BitVec 1
  | some _ => 1#1
  | none => 0#1

/-- What a data port carries for an outcome: the value's number, or 0 for "no value" (R22, R23, decision D6, log
entry 5). -/
def onPort {α : Type} {n : Nat} (r : Option α) (number : α → BitVec n) : BitVec n :=
  match r with
  | some v => number v
  | none => 0#n

/-- How a consumer reads data under a valid bit (spec/70_reset_and_hazards.md R110): a value only when it is 1. -/
def underValid {α : Type} (valid : BitVec 1) (data : α) : Option α := if valid = 1#1 then some data else none

end Sys2Proof.Machine
end

