-- ==== Sys2Proof/Config.lean ====
section
/-! DEFINITION. Parameters of the design. The block has no configuration (spec/10_state.md R18): every parameter of
spec/00_scope.md R6 is a constant, given here under the name the parameter table of R7 uses. The model needs no
free value: no output is non-deterministic (spec/93_implementation_defined.md), and the two propagation delays
left OPEN by decision D18 are read by no rule, so a model does not take them (log entry 8). -/

namespace Sys2Proof

/-- `YEAR_BASE` of R6: the year that year offset 0 stands for. -/
def Config.yearBase : Nat := 1980

/-- `HOUR_MAX` of R6. -/
def Config.hourMax : Nat := 23

/-- `MIN_MAX` of R6. -/
def Config.minMax : Nat := 59

/-- `TWOSEC_MAX` of R6: the largest legal two-second count (no leap second, R5 (c), R59). -/
def Config.twoSecMax : Nat := 29

/-- The scale of the seconds field, R6: seconds per count. -/
def Config.secondScale : Nat := 2

end Sys2Proof
end

