-- ==== Sys2Proof/Machine/Operands.lean ====
section
/-! DEFINITION. The values a unit computes and the operand forms of spec/30_encoding.md R44 and R45. The outcome of
an evaluation is `some` of a value or `none`, the source's "no value" (spec/00_scope.md R13). The numbers are exact
naturals (R10); the ports narrow them at the end (`zext8`, `zext16`). -/

namespace Sys2Proof.Machine

/-- `value(h, m, s)` of the time unit, R13. -/
structure TimeValue where
  hour : Nat
  minute : Nat
  second : Nat
deriving DecidableEq, Repr

/-- `value(y, M, d)` of the date unit, R13. The month is its number (decision D7, conflict C5). -/
structure DateValue where
  year : Nat
  month : Nat
  day : Nat
deriving DecidableEq, Repr

/-- The outcome of one evaluation of one unit, in the option view that R13 and decision D16 make normative. -/
inductive Result where
  | time (r : Option TimeValue)
  | date (r : Option DateValue)
deriving DecidableEq, Repr

/-- `seconds = two_sec * 2`, R44 and R60. -/
def secondsOf (twoSec : BitVec 5) : Nat := twoSec.toNat * Config.secondScale

/-- `year = 1980 + year_offset`, R45 and R72. -/
def yearOf (yearOffset : BitVec 7) : Nat := Config.yearBase + yearOffset.toNat

/-- A number on an 8-bit output port (`zext_8`, R9). -/
def zext8 (n : Nat) : BitVec 8 := BitVec.ofNat 8 n

/-- A number on a 16-bit output port (`zext_16`, R9). -/
def zext16 (n : Nat) : BitVec 16 := BitVec.ofNat 16 n

end Sys2Proof.Machine
end

