-- ==== Sys2Proof/Machine/State.lean ====
section
/-! DEFINITION. The machine's state. The block itself stores nothing (spec/10_state.md R15 to R21): State holds what
its ports carry (R22, R23), and which unit's operation the next step runs by name (log entry 1). The outputs are
listed here so that a state shows them; every operation computes them anew from the inputs (log entry 4). There is no memory, no
program counter, no flag and no exception register to hold. -/

namespace Sys2Proof.Machine

/-- Why a step stops with a fault: never. An evaluation always returns a next output (spec/60_exceptions.md R85),
the abort of the software source has no port and no input that reaches it (R90, decision D9), so the type has no
constructor (log entry 10). -/
inductive Fault
deriving DecidableEq, Repr

/-- Why a step is refused. -/
inductive Refusal where
  /-- The instruction of this mnemonic has no meaning yet. Raised by an arm of exec only; no arm raises it in this
  model. Safe: the run stops. -/
  | notModelled (mnemonic : String)
deriving DecidableEq, Repr

/-- The ports of both units, and the name of the unit whose operation the next step runs. -/
@[ext]
structure State where
  /-- Input port `dos_time[15:0]`, R22. -/
  dosTime : Word
  /-- Output port `hour[7:0]`, R22. -/
  hour : BitVec 8
  /-- Output port `minute[7:0]`, R22. -/
  minute : BitVec 8
  /-- Output port `second[7:0]`, R22. -/
  second : BitVec 8
  /-- Output port `time_valid`, R22: 1 a value, 0 "no value". -/
  timeValid : BitVec 1
  /-- Input port `dos_date[15:0]`, R23. -/
  dosDate : Word
  /-- Output port `year[15:0]`, R23. -/
  year : BitVec 16
  /-- Output port `month[15:0]`, R23. -/
  month : BitVec 16
  /-- Output port `day[15:0]`, R23. -/
  day : BitVec 16
  /-- Output port `date_valid`, R23: 1 a value, 0 "no value". -/
  dateValid : BitVec 1
  /-- The model's own field, no state of the block: the unit whose operation the next step runs by name (R14,
  log entry 1). It enables nothing: no output depends on it. -/
  selected : UnitName
deriving DecidableEq, Repr

/-- The machine as it stands first. The block has no reset (R26, spec/70_reset_and_hazards.md R102). Both inputs
are driven with zero (log entry 3, DESIGN CHOICE), for which R103 gives the outputs: 00:00:00 with `time_valid` = 1,
and `date_valid` = 0. -/
def State.reset : State where
  dosTime := 0x0000#16
  hour := 0x00#8
  minute := 0x00#8
  second := 0x00#8
  timeValid := 1#1
  dosDate := 0x0000#16
  year := 0x0000#16
  month := 0x0000#16
  day := 0x0000#16
  dateValid := 0#1
  selected := .dosTimeDecoder

end Sys2Proof.Machine
end

