-- ==== Sys2Proof/Machine/Ops.lean ====
section
/-! DEFINITION. The named operations on the ports. The block has no registers, memory or exceptions to operate on:
there is no memory operation (spec/20_memory.md R30), no exception entry (spec/60_exceptions.md R93) and no return
from one (R94). -/

namespace Sys2Proof.Machine

/-- `in.<port>` of a unit (spec/00_scope.md R11). -/
def State.inputOf (s : State) : UnitName → Word
  | .dosTimeDecoder => s.dosTime
  | .dosDateDecoder => s.dosDate

/-- Every field of the time unit's output ports at once (R11: a unit drives all of its outputs). -/
def State.setTimePorts (s : State) (h m sec : BitVec 8) (v : BitVec 1) : State :=
  { s with hour := h, minute := m, second := sec, timeValid := v }

/-- Every field of the date unit's output ports at once. -/
def State.setDatePorts (s : State) (y m d : BitVec 16) (v : BitVec 1) : State :=
  { s with year := y, month := m, day := d, dateValid := v }

/-- The environment puts a word on a unit's input port and names that unit's operation as the next one (R51; log
entry 1). The outputs that follow at once are `State.present`. -/
def State.driveInput (s : State) (st : Stimulus) : State :=
  match st.unit with
  | .dosTimeDecoder => { s with dosTime := st.word, selected := .dosTimeDecoder }
  | .dosDateDecoder => { s with dosDate := st.word, selected := .dosDateDecoder }

/-- The operation that a step runs by name: the selected unit's, on the word on its own port (R14, R40). -/
def fetch (s : State) : Instr := decode ⟨s.selected, s.inputOf s.selected⟩

/-- The other of the two units. -/
def otherUnit : UnitName → UnitName
  | .dosTimeDecoder => .dosDateDecoder
  | .dosDateDecoder => .dosTimeDecoder

/-- The operation of the unit that is not selected, on the word on its own port: it decodes all the while too
(decision D8). -/
def fetchOther (s : State) : Instr := decode ⟨otherUnit s.selected, s.inputOf (otherUnit s.selected)⟩

/-- Drives the time unit's outputs with an outcome, spec/40_time_decoder.md R64: all data 0 for "no value"
(decision D6, log entry 5). -/
def driveTime (r : Option TimeValue) (s : State) : State :=
  s.setTimePorts (onPort r fun v => zext8 v.hour) (onPort r fun v => zext8 v.minute)
    (onPort r fun v => zext8 v.second) (validBit r)

/-- Drives the date unit's outputs with an outcome, spec/41_date_decoder.md R81: all data 0 for "no value"
(decision D6, log entry 5). -/
def driveDate (r : Option DateValue) (s : State) : State :=
  s.setDatePorts (onPort r fun v => zext16 v.year) (onPort r fun v => zext16 v.month)
    (onPort r fun v => zext16 v.day) (validBit r)

/-- The time unit's ports in the option view (spec/00_scope.md R13). -/
def State.timeView (s : State) : Option TimeValue :=
  underValid s.timeValid ⟨s.hour.toNat, s.minute.toNat, s.second.toNat⟩

/-- The date unit's ports in the option view (R13). -/
def State.dateView (s : State) : Option DateValue :=
  underValid s.dateValid ⟨s.year.toNat, s.month.toNat, s.day.toNat⟩

/-- The ports of one unit in the option view. -/
def State.viewOf (s : State) : UnitName → Result
  | .dosTimeDecoder => .time s.timeView
  | .dosDateDecoder => .date s.dateView

end Sys2Proof.Machine
end

