-- ==== Sys2Proof/Machine/DateDecoder.lean ====
section
/-! DEFINITION. The date unit, operation DDATE: spec/41_date_decoder.md R67 to R84. -/

namespace Sys2Proof.Machine

/-- The result of DDATE on the three raw fields, the pseudocode of R67. Step 1, the zero word (R68), is all three
fields zero. The year range check (R69) and "day > 31" (R71) cannot fail and are not made. -/
def dateResult (yearOffset : BitVec 7) (monthRaw : BitVec 4) (day : BitVec 5) : Option DateValue :=
  if yearOffset = 0#7 ∧ monthRaw = 0#4 ∧ day = 0#5 then none
  else
    match Month.ofNumber? monthRaw.toNat with
    | none => none
    | some m =>
      if day.toNat < 1 then none
      else if day.toNat > monthLength (yearOf yearOffset) m then none
      else some ⟨yearOf yearOffset, m.number, day.toNat⟩

/-- `decode_date` of spec/00_scope.md R13: the unit as a function of the word alone. -/
def decodeDate (w : Word) : Option DateValue := dateResult (yearOffsetField w) (monthField w) (dayField w)

/-- DDATE, R67 and R81: the four outputs of the date unit are driven, nothing else changes. The
operands are the fields of the word on the unit's input port, which a step reads there. -/
def execDdate (yearOffset : BitVec 7) (monthRaw : BitVec 4) (day : BitVec 5) (s : State) :
    Host.Outcome State Fault Refusal :=
  .next (driveDate (dateResult yearOffset monthRaw day) s)

end Sys2Proof.Machine
end

