-- ==== Sys2Proof/Machine/TimeDecoder.lean ====
section
/-! DEFINITION. The time unit, operation DTIME: spec/40_time_decoder.md R56 to R66. -/

namespace Sys2Proof.Machine

/-- The result of DTIME on the three raw fields, the pseudocode of R56. -/
def timeResult (hours : BitVec 5) (minutes : BitVec 6) (twoSec : BitVec 5) : Option TimeValue :=
  if hours.toNat > Config.hourMax then none
  else if minutes.toNat > Config.minMax then none
  else if twoSec.toNat > Config.twoSecMax then none
  else some ⟨hours.toNat, minutes.toNat, secondsOf twoSec⟩

/-- `decode_time` of spec/00_scope.md R13: the unit as a function of the word alone. -/
def decodeTime (w : Word) : Option TimeValue := timeResult (hoursField w) (minutesField w) (twoSecField w)

/-- DTIME, R56 and R64: the four outputs of the time unit are driven, nothing else changes. The
operands are the fields of the word on the unit's input port, which a step reads there. -/
def execDtime (hours : BitVec 5) (minutes : BitVec 6) (twoSec : BitVec 5) (s : State) :
    Host.Outcome State Fault Refusal :=
  .next (driveTime (timeResult hours minutes twoSec) s)

end Sys2Proof.Machine
end

