-- ==== Sys2Proof/Machine/Combinational.lean ====
section
/-! DEFINITION. Both units decode whatever is on their inputs at all times: no enable, no hold, no storage
(spec/10_state.md R17, R21, R22, R23, decisions D2 and D8). Every output of every state that the machine or the
environment makes is therefore computed here, anew, from the two input words alone. -/

namespace Sys2Proof.Machine

/-- The outputs of both units as the functions of their present inputs, R64 and R81. No old output, and no
selection, enters. -/
def settle (s : State) : State := driveDate (decodeDate s.dosDate) (driveTime (decodeTime s.dosTime) s)

/-- The environment drives a unit's input port with a word (R51). The outputs are the function of the new input from
the moment it is driven and the old result is gone (R26, spec/70_reset_and_hazards.md R103, R107, R113). -/
def State.present (s : State) (st : Stimulus) : State := settle (s.driveInput st)

end Sys2Proof.Machine
end

