-- ==== Sys2Proof/Machine/Dispatch.lean ====
section
/-! DEFINITION. One arm for each constructor of Instr. -/

namespace Sys2Proof.Machine

def exec (i : Instr) (s : State) : Host.Outcome State Fault Refusal :=
  match i with
  | .dtime hours minutes twoSec => Sys2Proof.Machine.execDtime hours minutes twoSec s
  | .ddate yearOffset monthRaw day => Sys2Proof.Machine.execDdate yearOffset monthRaw day s

end Sys2Proof.Machine
end

