-- ==== Sys2Proof/Machine/Step.lean ====
section
/-! DEFINITION. One step (spec/20_memory.md R39, spec/70_reset_and_hazards.md R112): both units evaluate the words on
their ports, the selected unit's operation being the one that is run first and by name. Neither unit is ever disabled
(decision D8). -/

namespace Sys2Proof.Machine

/-- One evaluation of each unit (R14). The selection names the instruction that is run first; since the units are
independent (R27) no output depends on it. -/
def step (s : State) : Host.Outcome State Fault Refusal :=
  match exec (fetch s) s with
  | .next t => exec (fetchOther t) t
  | .fault r => .fault r
  | .refused r => .refused r

/-- The state in which the environment presents the stimulus line that these bits stand for (log entry 2), so that
the next step runs it. Bits that are no stimulus line cannot be put on any port: the state stays as it is. -/
def State.withFetchWord (s : State) (nbits w : Nat) : State :=
  match tableStimulus nbits w with
  | some st => s.present st
  | none => s

end Sys2Proof.Machine
end

