-- ==== Sys2Proof/Safety.lean ====
section
/-! DEFINITION. The terms in which claims speak: when outputs are the function of the inputs, what they may carry, why a word
has no value, and the environment's runs. None of this is a part of the block. -/

namespace Sys2Proof.Machine

/-- The time unit's outputs are the function of its present input. Every state that a step or the environment makes
is so (spec/10_state.md R17, spec/70_reset_and_hazards.md R103, R107, R113; log entry 4). -/
def State.timeSettled (s : State) : Bool := decide (driveTime (decodeTime s.dosTime) s = s)

/-- The date unit's outputs are the function of its present input. -/
def State.dateSettled (s : State) : Bool := decide (driveDate (decodeDate s.dosDate) s = s)

/-- The outputs of one unit are the function of its present input. -/
def State.settledOn (s : State) : UnitName → Bool
  | .dosTimeDecoder => s.timeSettled
  | .dosDateDecoder => s.dateSettled

/-- Both units' outputs are the functions of their present inputs. -/
def State.settled (s : State) : Bool := s.timeSettled && s.dateSettled

/-- What the time ports may carry, spec/10_state.md R24 with decision D6: "no value" with all data 0, or a time. -/
def State.timeInRange (s : State) : Bool :=
  if s.timeValid = 1#1 then
    decide (s.hour.toNat ≤ 23 ∧ s.minute.toNat ≤ 59 ∧ s.second.toNat ≤ 58 ∧ s.second.toNat % 2 = 0)
  else decide (s.hour = 0#8 ∧ s.minute = 0#8 ∧ s.second = 0#8)

/-- What the date ports may carry, R24 with decision D6: "no value" with all data 0, or a legal day. -/
def State.dateInRange (s : State) : Bool :=
  if s.dateValid = 1#1 then
    decide (1980 ≤ s.year.toNat ∧ s.year.toNat ≤ 2107) &&
      match Month.ofNumber? s.month.toNat with
      | some m => decide (1 ≤ s.day.toNat ∧ s.day.toNat ≤ monthLength s.year.toNat m)
      | none => false
  else decide (s.year = 0#16 ∧ s.month = 0#16 ∧ s.day = 0#16)

/-- The output invariants of R24 on both units. -/
def State.outputsInRange (s : State) : Bool := s.timeInRange && s.dateInRange

/-- The labels of the causes of "no value", spec/60_exceptions.md R86 (decision D14). They serve statements only:
no output tells one cause from another (R87). -/
inductive Cause where
  | tHour | tMinute | tTwosec
  | dZero | dMonth | dDay0 | dDaylen
deriving DecidableEq, Repr

/-- Whether a cause applies to a word on the unit the cause belongs to, R86. The length cause is judged only where
the month is one and the day is not 0, as spec/95_test_vectors.md labels its vectors. -/
def Cause.applies (w : Word) : Cause → Bool
  | .tHour => decide ((hoursField w).toNat > 23)
  | .tMinute => decide ((minutesField w).toNat > 59)
  | .tTwosec => decide ((twoSecField w).toNat > 29)
  | .dZero => decide (w = 0x0000#16)
  | .dMonth => decide ((monthField w).toNat = 0 ∨ (monthField w).toNat > 12)
  | .dDay0 => decide ((dayField w).toNat = 0)
  | .dDaylen =>
    match Month.ofNumber? (monthField w).toNat with
    | some m => decide ((dayField w).toNat > monthLength (yearOf (yearOffsetField w)) m)
    | none => false

/-- The causes of one unit, R86. -/
def causesOf : UnitName → List Cause
  | .dosTimeDecoder => [.tHour, .tMinute, .tTwosec]
  | .dosDateDecoder => [.dZero, .dMonth, .dDay0, .dDaylen]

/-- The causes that apply to a stimulus line; several can at once (R92). -/
def causesOfLine (st : Stimulus) : List Cause := (causesOf st.unit).filter (Cause.applies st.word)

/-- The outcome of a stimulus line as a function of the line alone (spec/00_scope.md R13, R14). -/
def outcomeOf (st : Stimulus) : Result :=
  match st.unit with
  | .dosTimeDecoder => .time (decodeTime st.word)
  | .dosDateDecoder => .date (decodeDate st.word)

/-- One stimulus line (spec/30_encoding.md R51): the environment presents it, the unit evaluates. -/
def evaluate (s : State) (st : Stimulus) : Host.Outcome State Fault Refusal := step (s.present st)

/-- A run (R14): any sequence of stimulus lines, with the option view of the evaluated unit's ports read after each
line. The sequence lives here, outside the machine, as spec/10_state.md R16 asks. -/
def runLines : List Stimulus → State → Host.Outcome (State × List Result) Fault Refusal
  | [], s => .next (s, [])
  | st :: rest, s =>
    match evaluate s st with
    | .next t =>
      match runLines rest t with
      | .next (u, seen) => .next (u, t.viewOf st.unit :: seen)
      | .fault r => .fault r
      | .refused r => .refused r
    | .fault r => .fault r
    | .refused r => .refused r

end Sys2Proof.Machine
end

