-- ==== Sys2Proof/WellFormed.lean ====
section
/-! DEFINITION. Well-formedness. The raw ranges of spec/30_encoding.md R42 and R43 are exactly the widths of the
operand fields, so the type `Instr` admits no term that its format cannot encode and no check is left for an
instruction; an out-of-range field is a legal operand with the outcome "no value" (R47, R48, R49). The checks that
remain are those of the three bytes that carry a stimulus line as a number (log entry 2). -/

namespace Sys2Proof

/-- An instruction is well formed. Every term is: the operands' types are the raw ranges of R42 and R43. -/
def Instr.wellFormed : Instr → Bool
  | .dtime _ _ _ => true
  | .ddate _ _ _ => true

/-- The length check of a frame: low byte, high byte, unit byte. -/
def frameLongEnough (bytes : List Byte) : Bool := decide (3 ≤ bytes.length)

/-- The unit check of a frame: the third byte is 0 (`dos_time_decoder`) or 1 (`dos_date_decoder`). There is no
third unit (R46). -/
def frameNamesUnit (bytes : List Byte) : Bool :=
  match bytes with
  | _ :: _ :: u :: _ => decide (u = 0#8 ∨ u = 1#8)
  | _ => false

/-- A frame is well formed: the decoder accepts it. -/
def frameWellFormed (bytes : List Byte) : Bool := frameLongEnough bytes && frameNamesUnit bytes

end Sys2Proof
end

