-- ==== Sys2Proof/Certificates/Slice0/Obligations.lean ====
section
/-! DEFINITION. The statements for the provers. Fields are written here with the source's own shifts and masks on
numbers (`(w >>> 11) &&& 0x1F`), and the calendar with its own numbers where a statement is about the date unit, so
that a wrong bit position or a wrong table entry of the model would refute them. -/

open Sys2Proof
open Sys2Proof.Machine

/-! ## Words, fields and frames -/

/-- Decoding what the encoder writes gives the instruction back, for both operations and every operand (R42, R43,
R52): through the stimulus line, and through the bytes with anything after them (the frame is log entry 2). -/
def Obligations.DecodeRecoversEncodedInstruction : Prop :=
  ∀ (i : Instr) (rest : List Byte), i.wellFormed = true →
    decode (encodeStimulus i) = i ∧ decodeBytes (encode i ++ rest) = .ok (i, rest)

/-- Encoding what the decoder reads gives the word and the unit back: the three fields cover all 16 bits and no bit
is unused (R42, R43). The second clause says the same of the word's three bytes, low byte, high byte and unit byte:
that frame is the model's own choice (log entry 2, DESIGN CHOICE), no rule of the spec. -/
def Obligations.EncodeRecoversDecodedWord : Prop :=
  ∀ st : Stimulus, encodeStimulus (decode st) = st ∧
    decodeBytes [lowByte st.word, highByte st.word, unitByte st.unit] = .ok (decode st, [])

/-- The worked words of R54, R56, R67 and R84 decode to the fields the spec lists for them. The last two clauses ask
the same through the host's numbering, 16 bits for the time unit and 24 bits with bit 16 set for the date unit: that
numbering is the model's own choice (log entry 2, DESIGN CHOICE), no rule of the spec. -/
def Obligations.SpecWordsDecodeToListedFields : Prop :=
  decode ⟨.dosTimeDecoder, 0b1011111101111101#16⟩ = .dtime 23#5 59#6 29#5 ∧
  decode ⟨.dosDateDecoder, 0b1011111101111101#16⟩ = .ddate 95#7 11#4 29#5 ∧
  decode ⟨.dosTimeDecoder, 0b0100011101111101#16⟩ = .dtime 8#5 59#6 29#5 ∧
  decode ⟨.dosDateDecoder, 0b0000100001011101#16⟩ = .ddate 4#7 2#4 29#5 ∧
  decodeTableWord 16 0x477D = some (.dtime 8#5 59#6 29#5) ∧
  decodeTableWord 24 0x1085D = some (.ddate 4#7 2#4 29#5)

/-- The model's own framing (log entry 2): too few bytes are `truncated`, a third byte other than 0 and 1 is
`noSuchUnit`, and every other frame is read with R28's byte assembly. -/
def Obligations.FramesAreReadOrRejectedByName : Prop :=
  (∀ bytes : List Byte, bytes.length < 3 → decodeBytes bytes = .error .truncated) ∧
  (∀ (b0 b1 u : Byte) (rest : List Byte),
    decodeBytes (b0 :: b1 :: u :: rest) =
      if u = 0#8 then .ok (decode ⟨.dosTimeDecoder, assembleWord b0 b1⟩, rest)
      else if u = 1#8 then .ok (decode ⟨.dosDateDecoder, assembleWord b0 b1⟩, rest)
      else .error .noSuchUnit) ∧
  (∀ bytes : List Byte, (∃ r, decodeBytes bytes = .ok r) ↔ frameWellFormed bytes = true)

/-- R28: the word of two bytes of a disk image, the byte at the lower offset in bits 7:0; the rule's example, and
its swapped bytes. -/
def Obligations.DiskBytesAssembleLittleEndian : Prop :=
  (∀ b0 b1 : Byte, (assembleWord b0 b1).toNat = b1.toNat * 256 + b0.toNat ∧
    lowByte (assembleWord b0 b1) = b0 ∧ highByte (assembleWord b0 b1) = b1) ∧
  assembleWord 0x7D#8 0xBF#8 = 0xBF7D#16 ∧ assembleWord 0xBF#8 0x7D#8 = 0x7DBF#16 ∧
  decode ⟨.dosTimeDecoder, 0x7DBF#16⟩ = .dtime 15#5 45#6 31#5 ∧ decodeTime 0x7DBF#16 = none

/-- R40: the unit alone selects the operation, for every word. -/
def Obligations.UnitAloneSelectsOperation : Prop :=
  ∀ w : Word, (∃ h m t, decode ⟨.dosTimeDecoder, w⟩ = .dtime h m t) ∧
    (∃ o m d, decode ⟨.dosDateDecoder, w⟩ = .ddate o m d)

/-- R44 whole: the three time fields are the source's shifts and masks, the second is twice the count, which is the
count with a zero bit below it, and after a step a valid outcome is on the ports, whichever unit is selected. -/
def Obligations.TimeOperandsFollowFieldLayout : Prop :=
  ∀ s : State, ∃ (h : BitVec 5) (m : BitVec 6) (t : BitVec 5) (s' : State),
    decode ⟨.dosTimeDecoder, s.dosTime⟩ = .dtime h m t ∧
    h.toNat = (s.dosTime.toNat >>> 11) &&& 0x1F ∧
    m.toNat = (s.dosTime.toNat >>> 5) &&& 0x3F ∧
    t.toNat = s.dosTime.toNat &&& 0x1F ∧
    secondsOf t = t.toNat * 2 ∧ secondsOf t = (t ++ 0#1).toNat ∧
    step s = .next s' ∧
    (s'.timeValid = 1#1 → s'.hour = h.setWidth 8 ∧ s'.minute = m.setWidth 8 ∧ s'.second = (t ++ 0#1).setWidth 8)

/-- R45 whole: the three date fields are the source's shifts and masks, the year is the offset plus 1980, and after a
step a valid outcome is on the ports, whichever unit is selected. -/
def Obligations.DateOperandsFollowFieldLayout : Prop :=
  ∀ s : State, ∃ (o : BitVec 7) (m : BitVec 4) (d : BitVec 5) (s' : State),
    decode ⟨.dosDateDecoder, s.dosDate⟩ = .ddate o m d ∧
    o.toNat = (s.dosDate.toNat >>> 9) &&& 0x7F ∧
    m.toNat = (s.dosDate.toNat >>> 5) &&& 0x0F ∧
    d.toNat = s.dosDate.toNat &&& 0x1F ∧
    yearOf o = 1980 + o.toNat ∧
    step s = .next s' ∧
    (s'.dateValid = 1#1 → s'.year = o.setWidth 16 + 1980#16 ∧ s'.month = m.setWidth 16 ∧ s'.day = d.setWidth 16)

/-! ## Steps -/

/-- A step runs the instruction i that the selected unit's input word decodes to, and then the instruction j of the
other unit's word, since that unit decodes all the while too (decision D8); where the other unit's outputs already
are the function of its input, the step is i alone. The selection (log entry 1) and the bytes that name a unit (log
entry 2) are the model's own choices, DESIGN CHOICE. -/
def Obligations.StepRunsDecodedInstruction : Prop :=
  ∀ (s : State) (i j : Instr),
    decodeBytes [lowByte (s.inputOf s.selected), highByte (s.inputOf s.selected), unitByte s.selected] = .ok (i, []) →
    decodeBytes [lowByte (s.inputOf (otherUnit s.selected)), highByte (s.inputOf (otherUnit s.selected)),
      unitByte (otherUnit s.selected)] = .ok (j, []) →
    i.wellFormed = true → j.wellFormed = true →
    (∃ t, exec i s = .next t ∧ step s = exec j t) ∧ (s.settledOn (otherUnit s.selected) = true → step s = exec i s)

/-- Bits that the decoder reads as an instruction are run by the very next step once they are presented (log entry 2,
the model's own choice), and presenting leaves the other unit's input as it was. -/
def Obligations.PresentedTableWordRunsNext : Prop :=
  ∀ (s : State) (nbits w : Nat) (i : Instr), decodeTableWord nbits w = some i →
    ∃ st : Stimulus, decode st = i ∧ s.withFetchWord nbits w = s.present st ∧
      fetch (s.withFetchWord nbits w) = i ∧
      step (s.withFetchWord nbits w) = exec i (s.withFetchWord nbits w) ∧
      (s.present st).inputOf (otherUnit st.unit) = s.inputOf (otherUnit st.unit)

/-- R26, R103, R107 and R113: from the moment the environment drives a word on a port, from any state, that unit's
outputs are the word's outcome and the old result is gone; both units' outputs are then the functions of their
inputs, the other input stays, and further steps change nothing. -/
def Obligations.PresentedWordShowsItsOutcomeAtOnce : Prop :=
  ∀ (s : State) (st : Stimulus),
    (s.present st).viewOf st.unit = outcomeOf st ∧
    (s.present st).inputOf st.unit = st.word ∧
    (s.present st).inputOf (otherUnit st.unit) = s.inputOf (otherUnit st.unit) ∧
    (s.present st).viewOf (otherUnit st.unit) = outcomeOf ⟨otherUnit st.unit, s.inputOf (otherUnit st.unit)⟩ ∧
    (s.present st).settled = true ∧ step (s.present st) = .next (s.present st)

/-- R17 and R21 with decisions D2 and D8: the outputs store nothing. Two states that agree on both inputs and the
selection step to the same state, whatever stood on their outputs, and present any word to the same state. -/
def Obligations.OldOutputsReachNoLaterState : Prop :=
  ∀ s s' : State, s.dosTime = s'.dosTime → s.dosDate = s'.dosDate → s.selected = s'.selected →
    (∃ t, step s = .next t ∧ step s' = .next t) ∧ ∀ st : Stimulus, s.present st = s'.present st

/-- R22, R23 and R27 with decision D8: there is no enable. The selection, the model's own field (log entry 1), decides
no output of either unit. -/
def Obligations.SelectionEnablesNoUnit : Prop :=
  ∀ (s : State) (u : UnitName), ∃ t,
    step s = .next t ∧ step { s with selected := u } = .next { t with selected := u }

/-- R85 with R25, R49 and R112: every evaluation of every word answers a next state, and so does every instruction
in every state. -/
def Obligations.EveryEvaluationAnswersNext : Prop :=
  (∀ s : State, ∃ t, step s = .next t) ∧ (∀ (i : Instr) (s : State), ∃ t, exec i s = .next t)

/-- R56 and R64: DTIME completes in every state with every operand, and this is the whole next state. -/
def Obligations.DtimeCompletesDrivingItsPorts : Prop :=
  ∀ (h : BitVec 5) (m : BitVec 6) (t : BitVec 5) (s : State),
    exec (.dtime h m t) s = .next
      (if h.toNat ≤ 23 ∧ m.toNat ≤ 59 ∧ t.toNat ≤ 29 then
        { s with hour := h.setWidth 8, minute := m.setWidth 8, second := t.setWidth 8 * 2#8, timeValid := 1#1 }
      else { s with hour := 0x00#8, minute := 0x00#8, second := 0x00#8, timeValid := 0#1 })

/-- R67 and R81: DDATE completes in every state with every operand, and this is the whole next state. The month
lengths are R67's own. -/
def Obligations.DdateCompletesDrivingItsPorts : Prop :=
  ∀ (o : BitVec 7) (m : BitVec 4) (d : BitVec 5) (s : State),
    let year := 1980 + o.toNat
    let length :=
      if m.toNat = 2 then
        (if year % 4 = 0 ∧ (year % 100 ≠ 0 ∨ year % 400 = 0) then 29 else 28)
      else if m.toNat = 4 ∨ m.toNat = 6 ∨ m.toNat = 9 ∨ m.toNat = 11 then 30 else 31
    exec (.ddate o m d) s = .next
      (if 1 ≤ m.toNat ∧ m.toNat ≤ 12 ∧ 1 ≤ d.toNat ∧ d.toNat ≤ length then
        { s with year := o.setWidth 16 + 1980#16, month := m.setWidth 16, day := d.setWidth 16, dateValid := 1#1 }
      else { s with year := 0x0000#16, month := 0x0000#16, day := 0x0000#16, dateValid := 0#1 })

/-- The frame of both operations: an input port is read and never written, the selection stays, and a unit never
writes the other unit's ports (R27, R56, R67). -/
def Obligations.EvaluationWritesOnlyItsUnitsOutputs : Prop :=
  (∀ (h : BitVec 5) (m : BitVec 6) (sec : BitVec 5) (s t : State), exec (.dtime h m sec) s = .next t →
    t.dosTime = s.dosTime ∧ t.dosDate = s.dosDate ∧ t.selected = s.selected ∧
    t.year = s.year ∧ t.month = s.month ∧ t.day = s.day ∧ t.dateValid = s.dateValid) ∧
  (∀ (o : BitVec 7) (m : BitVec 4) (d : BitVec 5) (s t : State), exec (.ddate o m d) s = .next t →
    t.dosTime = s.dosTime ∧ t.dosDate = s.dosDate ∧ t.selected = s.selected ∧
    t.hour = s.hour ∧ t.minute = s.minute ∧ t.second = s.second ∧ t.timeValid = s.timeValid)

/-- The ports of both units carry the normative option result of R13 after every step, whichever unit is selected:
narrowing to the port widths loses nothing (R60, R72). -/
def Obligations.PortsCarryOptionResult : Prop :=
  ∀ s : State, ∃ t, step s = .next t ∧
    t.timeView = decodeTime s.dosTime ∧ t.dateView = decodeDate s.dosDate ∧
    ∀ u : UnitName, t.viewOf u = outcomeOf ⟨u, s.inputOf u⟩

/-! ## The time unit -/

/-- R47, R57, R58 and R59: the time words that give no value are exactly those with a field out of range, and an
invalid word changes nothing but the time unit's outputs. -/
def Obligations.InvalidTimeWordsAreExactlyOutOfRangeFields : Prop :=
  (∀ s : State, ∃ t, step s = .next t ∧
    (t.timeView = none ↔
      (s.dosTime.toNat >>> 11) &&& 0x1F ∈ [24, 25, 26, 27, 28, 29, 30, 31] ∨
      (s.dosTime.toNat >>> 5) &&& 0x3F ∈ [60, 61, 62, 63] ∨
      s.dosTime.toNat &&& 0x1F ∈ [30, 31]) ∧
    t.dosTime = s.dosTime ∧ t.dosDate = s.dosDate ∧ t.selected = s.selected ∧ t.dateView = decodeDate s.dosDate ∧
    (t.timeView = none → s.dateSettled = true →
      t = { s with hour := t.hour, minute := t.minute, second := t.second, timeValid := 0#1 })) ∧
  (∀ w : Word, 23 < (w.toNat >>> 11) &&& 0x1F → decodeTime w = none) ∧
  (∀ w : Word, 59 < (w.toNat >>> 5) &&& 0x3F → decodeTime w = none) ∧
  (∀ w : Word, 29 < w.toNat &&& 0x1F → decodeTime w = none) ∧
  decode ⟨.dosTimeDecoder, 0xC77D#16⟩ = .dtime 24#5 59#6 29#5 ∧ decodeTime 0xC77D#16 = none ∧
  decode ⟨.dosTimeDecoder, 0xBF9D#16⟩ = .dtime 23#5 60#6 29#5 ∧ decodeTime 0xBF9D#16 = none ∧
  decode ⟨.dosTimeDecoder, 0xBF7E#16⟩ = .dtime 23#5 59#6 30#5 ∧ decodeTime 0xBF7E#16 = none

/-- R60 whole: when the three checks pass, the value is the raw hour and minute and twice the count, at most 58, which
is the count shifted left by one and fits 6 bits, so that the 8-bit port carries it exactly. -/
def Obligations.InRangeTimeFieldsEmitTheirValue : Prop :=
  ∀ (s : State) (h : BitVec 5) (m : BitVec 6) (c : BitVec 5),
    s.dosTime = timeWord h m c → h.toNat ≤ 23 → m.toNat ≤ 59 → c.toNat ≤ 29 →
    ∃ t, step s = .next t ∧ t.timeView = some ⟨h.toNat, m.toNat, c.toNat * 2⟩ ∧
      c.toNat * 2 ≤ 58 ∧ c.toNat * 2 < 2 ^ 6 ∧ (c ++ 0#1).toNat = c.toNat * 2 ∧ t.second.toNat = c.toNat * 2

/-- R63: a valid time is the word's fields, within the limits; in-range fields give a value; valid words are
told apart by their values, and TIMEWORD recovers the word (the converse and the injectivity are the spec's own
derivations, "[derived: from rule R56]"). -/
def Obligations.ValidTimeIsTheWordsFields : Prop :=
  (∀ (w : Word) (v : TimeValue), decodeTime w = some v →
    v.hour = (w.toNat >>> 11) &&& 0x1F ∧ v.minute = (w.toNat >>> 5) &&& 0x3F ∧
    v.second = (w.toNat &&& 0x1F) * 2 ∧ v.hour ≤ 23 ∧ v.minute ≤ 59 ∧ v.second ≤ 58 ∧ v.second % 2 = 0 ∧
    timeWord (BitVec.ofNat 5 v.hour) (BitVec.ofNat 6 v.minute) (BitVec.ofNat 5 (v.second / 2)) = w) ∧
  (∀ w : Word, (w.toNat >>> 11) &&& 0x1F ≤ 23 → (w.toNat >>> 5) &&& 0x3F ≤ 59 → w.toNat &&& 0x1F ≤ 29 →
    (decodeTime w).isSome = true) ∧
  (∀ w w' : Word, (decodeTime w).isSome = true → decodeTime w = decodeTime w' → w = w')

/-- R61, with R68 beside it: the zero word is midnight on the time unit and no value on the date unit, after any
history. -/
def Obligations.ZeroWordIsMidnightAndNoDate : Prop :=
  ∀ s : State,
    (∃ t, evaluate s ⟨.dosTimeDecoder, 0x0000#16⟩ = .next t ∧ t.timeValid = 1#1 ∧ t.timeView = some ⟨0, 0, 0⟩) ∧
    (∃ t, evaluate s ⟨.dosDateDecoder, 0x0000#16⟩ = .next t ∧ t.dateValid = 0#1 ∧ t.dateView = none)

/-- R64's and R110's warning: the time data ports are all zero exactly for the zero word and for the invalid words,
so that the valid bit alone tells midnight from no value. R81: a valid date's data ports are never all zero. -/
def Obligations.OnlyValidBitTellsMidnightFromNoValue : Prop :=
  (∀ s : State, ∃ t, step s = .next t ∧
    ((t.hour = 0#8 ∧ t.minute = 0#8 ∧ t.second = 0#8) ↔ (s.dosTime = 0x0000#16 ∨ t.timeValid = 0#1)) ∧
    (s.dosTime = 0x0000#16 → t.timeValid = 1#1)) ∧
  (∀ s : State, ∃ t, step s = .next t ∧
    ((t.year = 0#16 ∧ t.month = 0#16 ∧ t.day = 0#16) ↔ t.dateValid = 0#1))

/-! ## The date unit -/

/-- R48 with the lengths of R76 (which the spec marks as general knowledge, log entry 6): the date words that give no
value are exactly those listed, no year offset is invalid, and an invalid word changes nothing but the date unit's
outputs. -/
def Obligations.InvalidDateWordsAreExactlyThoseListed : Prop :=
  (∀ s : State, ∃ t, step s = .next t ∧
    (t.dateView = none ↔
      let month := (s.dosDate.toNat >>> 5) &&& 0x0F
      let day := s.dosDate.toNat &&& 0x1F
      let year := 1980 + ((s.dosDate.toNat >>> 9) &&& 0x7F)
      s.dosDate = 0x0000#16 ∨ month ∈ [0, 13, 14, 15] ∨ day = 0 ∨
      (month = 2 ∧ day > if year % 4 = 0 ∧ (year % 100 ≠ 0 ∨ year % 400 = 0) then 29 else 28) ∨
      (month ∈ [4, 6, 9, 11] ∧ day > 30) ∨ (month ∈ [1, 3, 5, 7, 8, 10, 12] ∧ day > 31)) ∧
    t.dosTime = s.dosTime ∧ t.dosDate = s.dosDate ∧ t.selected = s.selected ∧ t.timeView = decodeTime s.dosTime ∧
    (t.dateView = none → s.timeSettled = true →
      t = { s with year := t.year, month := t.month, day := t.day, dateValid := 0#1 })) ∧
  (∀ o : BitVec 7, ∃ w : Word, yearOffsetField w = o ∧ (decodeDate w).isSome = true)

/-- R69 and R72 whole: the year on the port is the offset plus 1980 without wrap, in 1980 to 2107, with the port's
high bits 0; every offset occurs in a valid word, so there is no year out of range. -/
def Obligations.YearIsOffsetPlus1980ForEveryOffset : Prop :=
  (∀ s : State, ∃ t, step s = .next t ∧
    (t.dateValid = 1#1 →
      t.year.toNat = 1980 + ((s.dosDate.toNat >>> 9) &&& 0x7F) ∧ 0x07BC ≤ t.year.toNat ∧ t.year.toNat ≤ 0x083B ∧
      t.year.extractLsb' 12 4 = 0#4)) ∧
  (∀ o : BitVec 7, ∃ (w : Word) (v : DateValue), (w.toNat >>> 9) &&& 0x7F = o.toNat ∧ decodeDate w = some v ∧
    v.year = 1980 + o.toNat)

/-- R73 whole: with a month and a day of at least 1, the day is checked against the month's length and the result is
the date or no value; the length depends on the year only for February. -/
def Obligations.CalendarCheckDecidesTheDate : Prop :=
  (∀ (s : State) (m : Month),
    let year := 1980 + ((s.dosDate.toNat >>> 9) &&& 0x7F)
    let month := (s.dosDate.toNat >>> 5) &&& 0x0F
    let day := s.dosDate.toNat &&& 0x1F
    m.number = month → 1 ≤ day →
    ∃ t, step s = .next t ∧
      t.dateView = if day > monthLength year m then none else some ⟨year, month, day⟩) ∧
  (∀ (y y' : Nat) (m : Month), m ≠ .february → monthLength y m = monthLength y' m)

/-- R78: a valid date is the word's fields and a legal day; fields within the bounds give a value; valid words
are told apart by their values, and DATEWORD recovers the word (the converse and the injectivity are the spec's own
derivations, "[derived: from rule R67]"). -/
def Obligations.ValidDateIsTheWordsFields : Prop :=
  (∀ (w : Word) (v : DateValue), decodeDate w = some v →
    v.year - 1980 = (w.toNat >>> 9) &&& 0x7F ∧ v.month = (w.toNat >>> 5) &&& 0x0F ∧ v.day = w.toNat &&& 0x1F ∧
    1980 ≤ v.year ∧ v.year ≤ 2107 ∧ 1 ≤ v.month ∧ v.month ≤ 12 ∧
    (∃ m : Month, m.number = v.month ∧ 1 ≤ v.day ∧ v.day ≤ monthLength v.year m) ∧
    dateWord (BitVec.ofNat 7 (v.year - 1980)) (BitVec.ofNat 4 v.month) (BitVec.ofNat 5 v.day) = w) ∧
  (∀ (w : Word) (m : Month), m.number = (w.toNat >>> 5) &&& 0x0F → 1 ≤ w.toNat &&& 0x1F →
    w.toNat &&& 0x1F ≤ monthLength (1980 + ((w.toNat >>> 9) &&& 0x7F)) m → (decodeDate w).isSome = true) ∧
  (∀ w w' : Word, (decodeDate w).isSome = true → decodeDate w = decodeDate w' → w = w')

/-- R74: the leap-year rule is the full Gregorian one, and 2100 is the year where the source's remark fails. -/
def Obligations.LeapYearIsFullGregorianRule : Prop :=
  (∀ y : Nat, isLeap y = true ↔ (4 ∣ y ∧ (¬ 100 ∣ y ∨ 400 ∣ y))) ∧
  4 ∣ 2100 ∧ 100 ∣ 2100 ∧ ¬ 400 ∣ 2100 ∧ isLeap 2100 = false

/-- R75, which the spec marks "[derived: from rules R72 and R74]": the rule in terms of the field; the two centuries; the 31 leap offsets; and "divisible by 4" alone
would differ on exactly one input word, 2100-02-29, which the unit rejects. -/
def Obligations.LeapRuleInTermsOfTheField : Prop :=
  (∀ o : BitVec 7, (1980 + o.toNat) % 4 = o.toNat % 4 ∧
    (o.extractLsb' 0 2).toNat = o.toNat % 4 ∧
    (isLeap (1980 + o.toNat) = true ↔ o.extractLsb' 0 2 = 0#2 ∧ o ≠ 120#7)) ∧
  (∀ o : BitVec 7, (1980 + o.toNat) % 100 = 0 ↔ o = 20#7 ∨ o = 120#7) ∧
  isLeap 2000 = true ∧ isLeap 2100 = false ∧
  (List.range 128).filter (fun o => isLeap (1980 + o)) =
    (List.range 30).map (fun k => 4 * k) ++ [124] ∧
  (∀ w : Word,
    (let year := 1980 + ((w.toNat >>> 9) &&& 0x7F)
     let month := (w.toNat >>> 5) &&& 0x0F
     let day := w.toNat &&& 0x1F
     let length := if month = 2 then (if year % 4 = 0 then 29 else 28)
       else if month = 4 ∨ month = 6 ∨ month = 9 ∨ month = 11 then 30 else 31
     ¬ ((decodeDate w).isSome = true ↔ 1 ≤ month ∧ month ≤ 12 ∧ 1 ≤ day ∧ day ≤ length)) ↔ w = 0xF05D#16) ∧
  decodeDate 0xF05D#16 = none

/-- R76, which the spec marks as general knowledge (log entry 6): the table of month lengths, by month number, with a month for 1 to 12 and for no other number. -/
def Obligations.MonthLengthsFollowTable : Prop :=
  (∀ y : Nat, (List.range 16).map (fun n => (Month.ofNumber? n).map (monthLength y)) =
    [none, some 31, some (if isLeap y then 29 else 28), some 31, some 30, some 31, some 30, some 31, some 31, some 30,
      some 31, some 30, some 31, none, none, none]) ∧
  (∀ m : Month, Month.ofNumber? m.number = some m)

/-- R77's list: with month 1 to 12 and day 1 to 31, exactly these pairs are rejected. -/
def Obligations.ImpossibleDatesAreRejected : Prop :=
  ∀ (s : State) (o : BitVec 7) (m : BitVec 4) (d : BitVec 5), 1 ≤ m.toNat → m.toNat ≤ 12 → 1 ≤ d.toNat →
    ∃ t, evaluate s ⟨.dosDateDecoder, dateWord o m d⟩ = .next t ∧
      (t.dateValid = 0#1 ↔
        (m.toNat, d.toNat) ∈ [(2, 30), (2, 31), (4, 31), (6, 31), (9, 31), (11, 31)] ∨
        ((m.toNat, d.toNat) = (2, 29) ∧ isLeap (1980 + o.toNat) = false))

/-- R79, which the spec marks "[derived: from rules R68 and R70]": the zero word has month 0 and day 0, dropping the zero test changes the outcome of no word, and what
can be observed of it is the asymmetry of the units. -/
def Obligations.ZeroTestIsImpliedByFieldTests : Prop :=
  monthField 0x0000#16 = 0#4 ∧ dayField 0x0000#16 = 0#5 ∧
  (∀ w : Word, decodeDate w =
    match Month.ofNumber? ((w.toNat >>> 5) &&& 0x0F) with
    | none => none
    | some m =>
      if 1 ≤ w.toNat &&& 0x1F ∧ w.toNat &&& 0x1F ≤ monthLength (1980 + ((w.toNat >>> 9) &&& 0x7F)) m then
        some ⟨1980 + ((w.toNat >>> 9) &&& 0x7F), m.number, w.toNat &&& 0x1F⟩
      else none) ∧
  (decodeTime 0x0000#16).isSome = true ∧ decodeDate 0x0000#16 = none

/-- The leap-day words of R84 and of conflicts C1, C2 and C3, evaluated after any history. -/
def Obligations.LeapDayWordsEvaluateAsCorrected : Prop :=
  ∀ s : State,
    (∃ t, evaluate s ⟨.dosDateDecoder, 0x085D#16⟩ = .next t ∧ t.dateView = some ⟨1984, 2, 29⟩) ∧
    (∃ t, evaluate s ⟨.dosDateDecoder, 0x025D#16⟩ = .next t ∧ t.dateView = none) ∧
    (∃ t, evaluate s ⟨.dosDateDecoder, 0x0A5D#16⟩ = .next t ∧ t.dateView = none) ∧
    (∃ t, evaluate s ⟨.dosDateDecoder, 0x02DD#16⟩ = .next t ∧ t.dateView = some ⟨1981, 6, 29⟩) ∧
    (∃ t, evaluate s ⟨.dosDateDecoder, 0xF05C#16⟩ = .next t ∧ t.dateView = some ⟨2100, 2, 28⟩) ∧
    (∃ t, evaluate s ⟨.dosDateDecoder, 0xF05D#16⟩ = .next t ∧ t.dateView = none) ∧
    (∃ t, evaluate s ⟨.dosDateDecoder, 0x285D#16⟩ = .next t ∧ t.dateView = some ⟨2000, 2, 29⟩)

/-! ## Whole-space counts -/

/-- R50, which the spec marks "[derived: from rules R47 and R48, by enumeration of all 65536 words]", time words: 43200 valid and 22336 invalid of the 65536. -/
def Obligations.TimeWordsCounted : Prop :=
  (List.range 65536).countP (fun n => (decodeTime (BitVec.ofNat 16 n)).isSome) = 24 * 60 * 30 ∧
  (List.range 65536).countP (fun n => (decodeTime (BitVec.ofNat 16 n)).isNone) = 22336

/-- R50, as before, date words: 46751 valid, 128 years of 365 days and a day in each of 31 leap years, and 18785 invalid. -/
def Obligations.DateWordsCounted : Prop :=
  (List.range 65536).countP (fun n => (decodeDate (BitVec.ofNat 16 n)).isSome) = 128 * 365 + 31 ∧
  (List.range 65536).countP (fun n => (decodeDate (BitVec.ofNat 16 n)).isNone) = 18785 ∧
  (List.range 128).countP (fun o => isLeap (1980 + o)) = 31

/-! ## No value -/

/-- R86 with R92: a stimulus line has no value exactly when a cause applies to it, however many do; the all-ones
time word has three. -/
def Obligations.NoValueExactlyWhenACauseApplies : Prop :=
  (∀ w : Word, decodeTime w = none ↔ causesOfLine ⟨.dosTimeDecoder, w⟩ ≠ []) ∧
  (∀ w : Word, decodeDate w = none ↔ causesOfLine ⟨.dosDateDecoder, w⟩ ≠ []) ∧
  causesOfLine ⟨.dosTimeDecoder, 0xFFFF#16⟩ = [.tHour, .tMinute, .tTwosec] ∧
  causesOfLine ⟨.dosDateDecoder, 0xFFFF#16⟩ = [.dMonth]

/-- R87 with R65, R82 and R92: two invalid words of one unit drive the same outputs, so that no output tells which
cause, or how many, applied. -/
def Obligations.InvalidWordsAreIndistinguishable : Prop :=
  (∀ (s : State) (w w' : Word), decodeTime w = none → decodeTime w' = none →
    ∃ t t', evaluate s ⟨.dosTimeDecoder, w⟩ = .next t ∧ evaluate s ⟨.dosTimeDecoder, w'⟩ = .next t' ∧
      { t with dosTime := w' } = t') ∧
  (∀ (s : State) (w w' : Word), decodeDate w = none → decodeDate w' = none →
    ∃ t t', evaluate s ⟨.dosDateDecoder, w⟩ = .next t ∧ evaluate s ⟨.dosDateDecoder, w'⟩ = .next t' ∧
      { t with dosDate := w' } = t')

/-! ## The whole machine -/

/-- R24, whose high bits are the spec's own derivation from R22 and R23 and rest on decision D6: after a step from any state both units' outputs meet the output invariants, and the
high bits that no value can reach are 0. -/
def Obligations.EvaluatedOutputsMeetTheirInvariants : Prop :=
  (∀ s : State, ∃ t, step s = .next t ∧
    (t.timeValid = 0#1 ∨ (t.hour.toNat ≤ 23 ∧ t.minute.toNat ≤ 59 ∧ t.second.toNat ≤ 58 ∧ t.second.toNat % 2 = 0)) ∧
    t.hour.extractLsb' 5 3 = 0#3 ∧ t.minute.extractLsb' 6 2 = 0#2 ∧ t.second.extractLsb' 6 2 = 0#2 ∧
    t.second.extractLsb' 0 1 = 0#1) ∧
  (∀ s : State, ∃ t, step s = .next t ∧
    (t.dateValid = 0#1 ∨ (1980 ≤ t.year.toNat ∧ t.year.toNat ≤ 2107 ∧
      ∃ m : Month, m.number = t.month.toNat ∧ 1 ≤ t.month.toNat ∧ t.month.toNat ≤ 12 ∧
        1 ≤ t.day.toNat ∧ t.day.toNat ≤ monthLength t.year.toNat m)) ∧
    t.year.extractLsb' 12 4 = 0#4 ∧ t.month.extractLsb' 4 12 = 0#12 ∧ t.day.extractLsb' 5 11 = 0#11)

/-- The invariant every step keeps: both units' outputs are a legal value or an all-zero no value (R24 with
decision D6, log entry 5). Every instruction keeps it too, and so does the environment's presenting a word, whose
outputs are the new word's (R103). -/
def Obligations.StepKeepsOutputRanges : Prop :=
  ∀ s : State, s.outputsInRange = true →
    (∀ t, step s = .next t → t.outputsInRange = true) ∧
    (∀ (i : Instr) (t : State), exec i s = .next t → t.outputsInRange = true) ∧
    (∀ st : Stimulus, (s.present st).outputsInRange = true)

/-- R17, R21, R103 and R107: every state that a step or the environment makes, from any state at all, has on its
outputs the functions of its inputs; a step from such a state changes nothing (R14), and an instruction run on the
word on its own port keeps it so. That a state lists the outputs is the model's way of showing them (log entry 4). -/
def Obligations.EvaluationSettlesItsUnit : Prop :=
  (∀ s t : State, step s = .next t → t.settled = true) ∧
  (∀ (s : State) (st : Stimulus), (s.present st).settled = true) ∧
  (∀ s : State, s.settled = true → step s = .next s) ∧
  (∀ (s t : State) (u : UnitName), s.settled = true → exec (decode ⟨u, s.inputOf u⟩) s = .next t → t.settled = true)

/-- The state the machine stands in first: both inputs zero and the time unit selected (log entry 3, the model's
choice), with the outputs that R103 gives for zero inputs. -/
def Obligations.ResetShowsTheZeroWordsOutputs : Prop :=
  State.reset.dosTime = 0x0000#16 ∧ State.reset.dosDate = 0x0000#16 ∧
  State.reset.timeValid = 1#1 ∧ State.reset.timeView = some ⟨0, 0, 0⟩ ∧ State.reset.dateValid = 0#1 ∧
  State.reset.settled = true ∧ State.reset.outputsInRange = true

/-- R14, R17 and R34: in a run of any stimulus lines from any state, every line answers the outcome of its own word
on its own unit, whatever came before it on either unit; the run never stops. -/
def Obligations.RunsGiveEachLineItsOwnOutcome : Prop :=
  ∀ (lines : List Stimulus) (s : State), ∃ t, runLines lines s = .next (t, lines.map outcomeOf)

/-- R17 and R94 on the ports themselves: an earlier word of the unit leaves no trace, so that the state after two
words is the state after the second alone. -/
def Obligations.EarlierWordLeavesNoTrace : Prop :=
  ∀ (s : State) (u : UnitName) (w w' : Word), ∃ t t',
    evaluate s ⟨u, w⟩ = .next t ∧ evaluate t ⟨u, w'⟩ = .next t' ∧ evaluate s ⟨u, w'⟩ = .next t'

/-- R64, R81 and R99: a unit's outputs after a step depend on its input word alone; two states that agree on that
word, and on nothing else, come to the same outputs of that unit. -/
def Obligations.OutputsDependOnOwnInputOnly : Prop :=
  (∀ s s' : State, s.dosTime = s'.dosTime →
    ∃ t t', step s = .next t ∧ step s' = .next t' ∧
      t.hour = t'.hour ∧ t.minute = t'.minute ∧ t.second = t'.second ∧ t.timeValid = t'.timeValid) ∧
  (∀ s s' : State, s.dosDate = s'.dosDate →
    ∃ t t', step s = .next t ∧ step s' = .next t' ∧
      t.year = t'.year ∧ t.month = t'.month ∧ t.day = t'.day ∧ t.dateValid = t'.dateValid)

/-- R27: the units are independent. Evaluating a word on one unit leaves the other's input, leaves its outcome that of
its own word, and leaves its outputs untouched where they already were that; two evaluations commute but for the
selection; and 0xBF7D presented on both ports gives both its readings, before a step and after it. -/
def Obligations.UnitsAreIndependent : Prop :=
  (∀ (s : State) (w v : Word), ∃ t1 t2 t3 t4,
    evaluate s ⟨.dosTimeDecoder, w⟩ = .next t1 ∧ evaluate t1 ⟨.dosDateDecoder, v⟩ = .next t2 ∧
    evaluate s ⟨.dosDateDecoder, v⟩ = .next t3 ∧ evaluate t3 ⟨.dosTimeDecoder, w⟩ = .next t4 ∧
    { t2 with selected := t4.selected } = t4 ∧
    t1.dosDate = s.dosDate ∧ t1.dateView = decodeDate s.dosDate ∧
    t3.dosTime = s.dosTime ∧ t3.timeView = decodeTime s.dosTime ∧
    (s.dateSettled = true →
      t1.year = s.year ∧ t1.month = s.month ∧ t1.day = s.day ∧ t1.dateValid = s.dateValid) ∧
    (s.timeSettled = true →
      t3.hour = s.hour ∧ t3.minute = s.minute ∧ t3.second = s.second ∧ t3.timeValid = s.timeValid)) ∧
  (∀ s : State, ∃ t,
    step ((s.present ⟨.dosTimeDecoder, 0xBF7D#16⟩).present ⟨.dosDateDecoder, 0xBF7D#16⟩) = .next t ∧
    t = (s.present ⟨.dosTimeDecoder, 0xBF7D#16⟩).present ⟨.dosDateDecoder, 0xBF7D#16⟩ ∧
    t.timeView = some ⟨23, 59, 58⟩ ∧ t.dateView = some ⟨2075, 11, 29⟩)
end

