-- ==== Sys2Proof/Laws/Calendar.lean ====
section
/-! SUPPORT. The months and their lengths. -/

namespace Sys2Proof.Machine

theorem Month.ofNumber_some {n : Nat} {m : Month} (h : Month.ofNumber? n = some m) : m.number = n := by
  unfold Month.ofNumber? at h
  split at h <;> first | (cases h; rfl) | cases h

theorem Month.number_range (m : Month) : 1 ≤ m.number ∧ m.number ≤ 12 := by
  cases m <;> decide

theorem Month.ofNumber_none {n : Nat} : Month.ofNumber? n = none ↔ n < 1 ∨ 12 < n := by
  constructor
  · intro h
    by_contra hn
    have h1 : 1 ≤ n := by omega
    have h2 : n ≤ 12 := by omega
    interval_cases n <;> simp [Month.ofNumber?] at h
  · intro h
    match hm : Month.ofNumber? n with
    | none => rfl
    | some m =>
      have := Month.ofNumber_some hm
      have := m.number_range
      omega

/-- Every month has 28 to 31 days (R76). -/
theorem monthLength_range (y : Nat) (m : Month) : 28 ≤ monthLength y m ∧ monthLength y m ≤ 31 := by
  cases m <;> simp only [monthLength] <;> (try split) <;> omega

end Sys2Proof.Machine
end

