-- ==== Sys2Proof/Laws/Config.lean ====
section
/-! SUPPORT. The constants as numerals, and the two computed operands. -/

namespace Sys2Proof

@[simp] theorem Config.yearBase_eq : Config.yearBase = 1980 := rfl
@[simp] theorem Config.hourMax_eq : Config.hourMax = 23 := rfl
@[simp] theorem Config.minMax_eq : Config.minMax = 59 := rfl
@[simp] theorem Config.twoSecMax_eq : Config.twoSecMax = 29 := rfl
@[simp] theorem Config.secondScale_eq : Config.secondScale = 2 := rfl

namespace Machine

theorem secondsOf_eq (t : BitVec 5) : secondsOf t = t.toNat * 2 := rfl

theorem yearOf_eq (o : BitVec 7) : yearOf o = 1980 + o.toNat := rfl

/-- R83: the year needs no more than 12 bits. -/
theorem yearOf_le (o : BitVec 7) : yearOf o ≤ 2107 := by
  have := o.isLt
  simp only [yearOf_eq]
  omega

end Machine

end Sys2Proof
end

