-- ==== Sys2Proof/Laws/Decode.lean ====
section
/-! SUPPORT. What the parts of the decoder answer. -/

namespace Sys2Proof

theorem decode_time (w : Word) :
    decode ⟨.dosTimeDecoder, w⟩ = .dtime (hoursField w) (minutesField w) (twoSecField w) := rfl

theorem decode_date (w : Word) :
    decode ⟨.dosDateDecoder, w⟩ = .ddate (yearOffsetField w) (monthField w) (dayField w) := rfl

@[simp] theorem unitOfByte_unitByte (u : UnitName) : unitOfByte (unitByte u) = some u := by
  cases u <;> decide

/-- R44's fields as shifts and masks of numbers. -/
theorem hoursField_toNat (w : Word) : (hoursField w).toNat = w.toNat / 2048 := by
  have := w.isLt
  simp only [hoursField, BitVec.extractLsb'_toNat, Nat.shiftRight_eq_div_pow]
  omega

theorem minutesField_toNat (w : Word) : (minutesField w).toNat = w.toNat / 32 % 64 := by
  simp only [minutesField, BitVec.extractLsb'_toNat, Nat.shiftRight_eq_div_pow]

theorem twoSecField_toNat (w : Word) : (twoSecField w).toNat = w.toNat % 32 := by
  simp [twoSecField, BitVec.extractLsb'_toNat]

/-- R45's fields as shifts and masks of numbers. -/
theorem yearOffsetField_toNat (w : Word) : (yearOffsetField w).toNat = w.toNat / 512 := by
  have := w.isLt
  simp only [yearOffsetField, BitVec.extractLsb'_toNat, Nat.shiftRight_eq_div_pow]
  omega

theorem monthField_toNat (w : Word) : (monthField w).toNat = w.toNat / 32 % 16 := by
  simp only [monthField, BitVec.extractLsb'_toNat, Nat.shiftRight_eq_div_pow]

theorem dayField_toNat (w : Word) : (dayField w).toNat = w.toNat % 32 := by
  simp [dayField, BitVec.extractLsb'_toNat]

/-- What the frame reader answers on three bytes or more. -/
theorem stimulusOfBytes_cons (b0 b1 u : Byte) (rest : List Byte) :
    stimulusOfBytes (b0 :: b1 :: u :: rest) =
      match unitOfByte u with
      | some name => .ok (⟨name, assembleWord b0 b1⟩, rest)
      | none => .error .noSuchUnit := rfl

/-- A table word is an instruction exactly when it is a stimulus line, and then it is that line's instruction. -/
theorem decodeTableWord_eq (nbits w : Nat) : decodeTableWord nbits w = (tableStimulus nbits w).map decode := by
  unfold decodeTableWord
  cases tableStimulus nbits w <;> rfl

end Sys2Proof
end

