-- ==== Sys2Proof/Laws/State.lean ====
section
/-! SUPPORT. One lemma per field for each update of State, true by unfolding, so that no later proof unfolds a record
update. -/

namespace Sys2Proof.Machine

variable (s : State) (h m sec : BitVec 8) (y mo d : BitVec 16) (v : BitVec 1) (w : Word)

@[simp] theorem setTimePorts_dosTime : (s.setTimePorts h m sec v).dosTime = s.dosTime := rfl
@[simp] theorem setTimePorts_hour : (s.setTimePorts h m sec v).hour = h := rfl
@[simp] theorem setTimePorts_minute : (s.setTimePorts h m sec v).minute = m := rfl
@[simp] theorem setTimePorts_second : (s.setTimePorts h m sec v).second = sec := rfl
@[simp] theorem setTimePorts_timeValid : (s.setTimePorts h m sec v).timeValid = v := rfl
@[simp] theorem setTimePorts_dosDate : (s.setTimePorts h m sec v).dosDate = s.dosDate := rfl
@[simp] theorem setTimePorts_year : (s.setTimePorts h m sec v).year = s.year := rfl
@[simp] theorem setTimePorts_month : (s.setTimePorts h m sec v).month = s.month := rfl
@[simp] theorem setTimePorts_day : (s.setTimePorts h m sec v).day = s.day := rfl
@[simp] theorem setTimePorts_dateValid : (s.setTimePorts h m sec v).dateValid = s.dateValid := rfl
@[simp] theorem setTimePorts_selected : (s.setTimePorts h m sec v).selected = s.selected := rfl

@[simp] theorem setDatePorts_dosTime : (s.setDatePorts y mo d v).dosTime = s.dosTime := rfl
@[simp] theorem setDatePorts_hour : (s.setDatePorts y mo d v).hour = s.hour := rfl
@[simp] theorem setDatePorts_minute : (s.setDatePorts y mo d v).minute = s.minute := rfl
@[simp] theorem setDatePorts_second : (s.setDatePorts y mo d v).second = s.second := rfl
@[simp] theorem setDatePorts_timeValid : (s.setDatePorts y mo d v).timeValid = s.timeValid := rfl
@[simp] theorem setDatePorts_dosDate : (s.setDatePorts y mo d v).dosDate = s.dosDate := rfl
@[simp] theorem setDatePorts_year : (s.setDatePorts y mo d v).year = y := rfl
@[simp] theorem setDatePorts_month : (s.setDatePorts y mo d v).month = mo := rfl
@[simp] theorem setDatePorts_day : (s.setDatePorts y mo d v).day = d := rfl
@[simp] theorem setDatePorts_dateValid : (s.setDatePorts y mo d v).dateValid = v := rfl
@[simp] theorem setDatePorts_selected : (s.setDatePorts y mo d v).selected = s.selected := rfl

@[simp] theorem driveInputTime_dosTime : (s.driveInput ⟨.dosTimeDecoder, w⟩).dosTime = w := rfl
@[simp] theorem driveInputTime_hour : (s.driveInput ⟨.dosTimeDecoder, w⟩).hour = s.hour := rfl
@[simp] theorem driveInputTime_minute : (s.driveInput ⟨.dosTimeDecoder, w⟩).minute = s.minute := rfl
@[simp] theorem driveInputTime_second : (s.driveInput ⟨.dosTimeDecoder, w⟩).second = s.second := rfl
@[simp] theorem driveInputTime_timeValid : (s.driveInput ⟨.dosTimeDecoder, w⟩).timeValid = s.timeValid := rfl
@[simp] theorem driveInputTime_dosDate : (s.driveInput ⟨.dosTimeDecoder, w⟩).dosDate = s.dosDate := rfl
@[simp] theorem driveInputTime_year : (s.driveInput ⟨.dosTimeDecoder, w⟩).year = s.year := rfl
@[simp] theorem driveInputTime_month : (s.driveInput ⟨.dosTimeDecoder, w⟩).month = s.month := rfl
@[simp] theorem driveInputTime_day : (s.driveInput ⟨.dosTimeDecoder, w⟩).day = s.day := rfl
@[simp] theorem driveInputTime_dateValid : (s.driveInput ⟨.dosTimeDecoder, w⟩).dateValid = s.dateValid := rfl
@[simp] theorem driveInputTime_selected : (s.driveInput ⟨.dosTimeDecoder, w⟩).selected = .dosTimeDecoder := rfl

@[simp] theorem driveInputDate_dosTime : (s.driveInput ⟨.dosDateDecoder, w⟩).dosTime = s.dosTime := rfl
@[simp] theorem driveInputDate_hour : (s.driveInput ⟨.dosDateDecoder, w⟩).hour = s.hour := rfl
@[simp] theorem driveInputDate_minute : (s.driveInput ⟨.dosDateDecoder, w⟩).minute = s.minute := rfl
@[simp] theorem driveInputDate_second : (s.driveInput ⟨.dosDateDecoder, w⟩).second = s.second := rfl
@[simp] theorem driveInputDate_timeValid : (s.driveInput ⟨.dosDateDecoder, w⟩).timeValid = s.timeValid := rfl
@[simp] theorem driveInputDate_dosDate : (s.driveInput ⟨.dosDateDecoder, w⟩).dosDate = w := rfl
@[simp] theorem driveInputDate_year : (s.driveInput ⟨.dosDateDecoder, w⟩).year = s.year := rfl
@[simp] theorem driveInputDate_month : (s.driveInput ⟨.dosDateDecoder, w⟩).month = s.month := rfl
@[simp] theorem driveInputDate_day : (s.driveInput ⟨.dosDateDecoder, w⟩).day = s.day := rfl
@[simp] theorem driveInputDate_dateValid : (s.driveInput ⟨.dosDateDecoder, w⟩).dateValid = s.dateValid := rfl
@[simp] theorem driveInputDate_selected : (s.driveInput ⟨.dosDateDecoder, w⟩).selected = .dosDateDecoder := rfl

@[simp] theorem inputOf_time : s.inputOf .dosTimeDecoder = s.dosTime := rfl
@[simp] theorem inputOf_date : s.inputOf .dosDateDecoder = s.dosDate := rfl

end Sys2Proof.Machine
end

