-- ==== Sys2Proof/Laws/Ops.lean ====
section
/-! SUPPORT. Once for each shared operation on the ports: everything it can do. -/

namespace Sys2Proof.Machine

/-- Driving a time value, R64. -/
theorem driveTime_some (v : TimeValue) (s : State) :
    driveTime (some v) s = s.setTimePorts (zext8 v.hour) (zext8 v.minute) (zext8 v.second) 1#1 := rfl

/-- Driving no time, R64 with decision D6. -/
theorem driveTime_none (s : State) : driveTime none s = s.setTimePorts 0x00#8 0x00#8 0x00#8 0#1 := rfl

/-- Driving a date value, R81. -/
theorem driveDate_some (v : DateValue) (s : State) :
    driveDate (some v) s = s.setDatePorts (zext16 v.year) (zext16 v.month) (zext16 v.day) 1#1 := rfl

/-- Driving no date, R81 with decision D6. -/
theorem driveDate_none (s : State) : driveDate none s = s.setDatePorts 0x0000#16 0x0000#16 0x0000#16 0#1 := rfl

/-- The frame of driving a time outcome: inputs, selection and the date unit's outputs stay. -/
@[simp] theorem driveTime_dosTime (r : Option TimeValue) (s : State) : (driveTime r s).dosTime = s.dosTime := rfl
@[simp] theorem driveTime_dosDate (r : Option TimeValue) (s : State) : (driveTime r s).dosDate = s.dosDate := rfl
@[simp] theorem driveTime_selected (r : Option TimeValue) (s : State) : (driveTime r s).selected = s.selected := rfl
@[simp] theorem driveTime_year (r : Option TimeValue) (s : State) : (driveTime r s).year = s.year := rfl
@[simp] theorem driveTime_month (r : Option TimeValue) (s : State) : (driveTime r s).month = s.month := rfl
@[simp] theorem driveTime_day (r : Option TimeValue) (s : State) : (driveTime r s).day = s.day := rfl
@[simp] theorem driveTime_dateValid (r : Option TimeValue) (s : State) : (driveTime r s).dateValid = s.dateValid := rfl

/-- The frame of driving a date outcome: inputs, selection and the time unit's outputs stay. -/
@[simp] theorem driveDate_dosTime (r : Option DateValue) (s : State) : (driveDate r s).dosTime = s.dosTime := rfl
@[simp] theorem driveDate_dosDate (r : Option DateValue) (s : State) : (driveDate r s).dosDate = s.dosDate := rfl
@[simp] theorem driveDate_selected (r : Option DateValue) (s : State) : (driveDate r s).selected = s.selected := rfl
@[simp] theorem driveDate_hour (r : Option DateValue) (s : State) : (driveDate r s).hour = s.hour := rfl
@[simp] theorem driveDate_minute (r : Option DateValue) (s : State) : (driveDate r s).minute = s.minute := rfl
@[simp] theorem driveDate_second (r : Option DateValue) (s : State) : (driveDate r s).second = s.second := rfl
@[simp] theorem driveDate_timeValid (r : Option DateValue) (s : State) : (driveDate r s).timeValid = s.timeValid := rfl

/-- Driving the same unit twice keeps the second outcome only. -/
@[simp] theorem driveTime_driveTime (r q : Option TimeValue) (s : State) :
    driveTime r (driveTime q s) = driveTime r s := rfl

@[simp] theorem driveDate_driveDate (r q : Option DateValue) (s : State) :
    driveDate r (driveDate q s) = driveDate r s := rfl

/-- The two units' outputs are disjoint. -/
theorem driveTime_driveDate (r : Option TimeValue) (q : Option DateValue) (s : State) :
    driveTime r (driveDate q s) = driveDate q (driveTime r s) := rfl

/-- The valid bit of a driven time outcome. -/
theorem driveTime_timeValid (r : Option TimeValue) (s : State) : (driveTime r s).timeValid = validBit r := rfl

/-- The valid bit of a driven date outcome. -/
theorem driveDate_dateValid (r : Option DateValue) (s : State) : (driveDate r s).dateValid = validBit r := rfl

/-- A consumer reads "no value" from the time ports exactly under `time_valid` = 0. -/
theorem timeView_eq_none (s : State) : s.timeView = none ↔ s.timeValid = 0#1 := by
  rcases BitVec.eq_zero_or_eq_one s.timeValid with h | h <;> simp [State.timeView, underValid, h]

/-- A consumer reads "no value" from the date ports exactly under `date_valid` = 0. -/
theorem dateView_eq_none (s : State) : s.dateView = none ↔ s.dateValid = 0#1 := by
  rcases BitVec.eq_zero_or_eq_one s.dateValid with h | h <;> simp [State.dateView, underValid, h]

/-- The instruction of the next step, by the selected unit. -/
theorem fetch_eq (s : State) : fetch s = decode ⟨s.selected, s.inputOf s.selected⟩ := rfl

end Sys2Proof.Machine
end

