-- ==== Sys2Proof/Laws/PerInstr.lean ====
section
/-! SUPPORT. The family of statements made for each instruction. -/

namespace Sys2Proof.Laws

/-- R40: on the unit an instruction belongs to, every word decodes to that same operation, whatever its bits. -/
def UnitSelects.Statement (i : Instr) : Prop :=
  ∀ w : Word, (encodeStimulus (decode ⟨(encodeStimulus i).unit, w⟩)).unit = (encodeStimulus i).unit

theorem UnitSelects.dtime (h : BitVec 5) (m : BitVec 6) (t : BitVec 5) :
    UnitSelects.Statement (.dtime h m t) := fun _ => rfl

theorem UnitSelects.ddate (o : BitVec 7) (m : BitVec 4) (d : BitVec 5) :
    UnitSelects.Statement (.ddate o m d) := fun _ => rfl

end Sys2Proof.Laws
end

