-- ==== Sys2Proof/Laws/Units.lean ====
section
/-! SUPPORT. What the two units answer, once for each, and what a step does. -/

namespace Sys2Proof.Machine

/-- Every outcome of the time unit, from its three raw fields (R56). -/
theorem timeResult_cases (h : BitVec 5) (m : BitVec 6) (t : BitVec 5) :
    (h.toNat ≤ 23 ∧ m.toNat ≤ 59 ∧ t.toNat ≤ 29 ∧
      timeResult h m t = some ⟨h.toNat, m.toNat, t.toNat * 2⟩) ∨
    ((23 < h.toNat ∨ 59 < m.toNat ∨ 29 < t.toNat) ∧ timeResult h m t = none) := by
  by_cases hh : h.toNat > 23
  · exact .inr ⟨.inl hh, by simp [timeResult, hh]⟩
  by_cases hm : m.toNat > 59
  · exact .inr ⟨.inr (.inl hm), by simp [timeResult, hm]⟩
  by_cases ht : t.toNat > 29
  · exact .inr ⟨.inr (.inr ht), by simp [timeResult, ht]⟩
  · exact .inl ⟨by omega, by omega, by omega, by simp [timeResult, secondsOf, hh, hm, ht]⟩

/-- Every outcome of the date unit, from its three raw fields (R67). -/
theorem dateResult_cases (o : BitVec 7) (mr : BitVec 4) (d : BitVec 5) :
    (∃ m : Month, Month.ofNumber? mr.toNat = some m ∧ 1 ≤ d.toNat ∧ d.toNat ≤ monthLength (yearOf o) m ∧
      dateResult o mr d = some ⟨yearOf o, mr.toNat, d.toNat⟩) ∨
    ((∀ m : Month, Month.ofNumber? mr.toNat = some m → d.toNat < 1 ∨ monthLength (yearOf o) m < d.toNat) ∧
      dateResult o mr d = none) := by
  by_cases hz : o = 0#7 ∧ mr = 0#4 ∧ d = 0#5
  · refine .inr ⟨?_, by simp [dateResult, hz]⟩
    obtain ⟨-, rfl, -⟩ := hz
    simp [Month.ofNumber?]
  cases hm : Month.ofNumber? mr.toNat with
  | none => exact .inr ⟨by simp, by simp [dateResult, hm]⟩
  | some m =>
    by_cases h1 : d.toNat < 1
    · exact .inr ⟨by simp [h1], by simp [dateResult, hm, h1]⟩
    by_cases h2 : d.toNat > monthLength (yearOf o) m
    · exact .inr ⟨by simp [h2], by simp [dateResult, hm, h1, h2]⟩
    · refine .inl ⟨m, rfl, by omega, by omega, ?_⟩
      rw [← Month.ofNumber_some hm]
      simp [dateResult, hz, hm, h1, h2]

theorem exec_dtime (h : BitVec 5) (m : BitVec 6) (t : BitVec 5) (s : State) :
    exec (.dtime h m t) s = .next (driveTime (timeResult h m t) s) := rfl

theorem exec_ddate (o : BitVec 7) (m : BitVec 4) (d : BitVec 5) (s : State) :
    exec (.ddate o m d) s = .next (driveDate (dateResult o m d) s) := rfl

/-- What `settle` keeps: the inputs and the selection. -/
@[simp] theorem settle_dosTime (s : State) : (settle s).dosTime = s.dosTime := rfl
@[simp] theorem settle_dosDate (s : State) : (settle s).dosDate = s.dosDate := rfl
@[simp] theorem settle_selected (s : State) : (settle s).selected = s.selected := rfl

/-- What `settle` puts on the outputs, port by port. -/
theorem settle_hour (s : State) :
    (settle s).hour = onPort (decodeTime s.dosTime) fun v => zext8 v.hour := rfl
theorem settle_minute (s : State) :
    (settle s).minute = onPort (decodeTime s.dosTime) fun v => zext8 v.minute := rfl
theorem settle_second (s : State) :
    (settle s).second = onPort (decodeTime s.dosTime) fun v => zext8 v.second := rfl
theorem settle_timeValid (s : State) : (settle s).timeValid = validBit (decodeTime s.dosTime) := rfl
theorem settle_year (s : State) :
    (settle s).year = onPort (decodeDate s.dosDate) fun v => zext16 v.year := rfl
theorem settle_month (s : State) :
    (settle s).month = onPort (decodeDate s.dosDate) fun v => zext16 v.month := rfl
theorem settle_day (s : State) :
    (settle s).day = onPort (decodeDate s.dosDate) fun v => zext16 v.day := rfl
theorem settle_dateValid (s : State) : (settle s).dateValid = validBit (decodeDate s.dosDate) := rfl

/-- Settling twice is settling once. -/
@[simp] theorem settle_settle (s : State) : settle (settle s) = settle s := rfl

/-- No old output enters: whatever a unit drove before, settling gives the same state. -/
@[simp] theorem settle_driveTime (r : Option TimeValue) (s : State) : settle (driveTime r s) = settle s := rfl
@[simp] theorem settle_driveDate (r : Option DateValue) (s : State) : settle (driveDate r s) = settle s := rfl

/-- The environment's whole effect, on either port. -/
theorem present_time (s : State) (w : Word) :
    s.present ⟨.dosTimeDecoder, w⟩ = settle { s with dosTime := w, selected := .dosTimeDecoder } := rfl

theorem present_date (s : State) (w : Word) :
    s.present ⟨.dosDateDecoder, w⟩ = settle { s with dosDate := w, selected := .dosDateDecoder } := rfl

/-- A presented stimulus line is what the next step fetches. -/
@[simp] theorem fetch_present (s : State) (st : Stimulus) : fetch (s.present st) = decode st := by
  obtain ⟨u, w⟩ := st
  cases u <;> rfl

/-- Everything a step can do: both units' outputs become the functions of their inputs, and nothing else moves. -/
theorem step_eq (s : State) : step s = .next (settle s) := by
  obtain ⟨_, _, _, _, _, _, _, _, _, _, u⟩ := s
  cases u <;> rfl

end Sys2Proof.Machine
end

