-- ==== Sys2Proof/Tests/Slice0.lean ====
section
/-! SUPPORT. The model's own tests. Expected values are the spec's: the bit patterns of spec/30_encoding.md R42 and
R43 written out field by field, and the vectors of spec/95_test_vectors.md named in each comment. The witnesses show,
for each statement that has hypotheses, values that meet them together, at the boundaries of its clauses. -/

namespace Sys2Proof.Tests

open Sys2Proof.Machine

/-! ## Decoding words written out bit by bit -/

/-- S1.10: `10111_111011_11101` is hours 23, minutes 59, two-second count 29. -/
theorem test_decode_dtime_last_valid :
    decode ⟨.dosTimeDecoder, 0b10111_111011_11101#16⟩ = .dtime 23#5 59#6 29#5 := by decide

/-- V-T6, V-T10, V-T2: the lowest bit of each time field. -/
theorem test_decode_dtime_field_lsbs :
    decode ⟨.dosTimeDecoder, 0b00001_000000_00000#16⟩ = .dtime 1#5 0#6 0#5 ∧
    decode ⟨.dosTimeDecoder, 0b00000_000001_00000#16⟩ = .dtime 0#5 1#6 0#5 ∧
    decode ⟨.dosTimeDecoder, 0b00000_000000_00001#16⟩ = .dtime 0#5 0#6 1#5 := by decide

/-- S1.8: `1011111_1011_11101` is year offset 95, month 11, day 29. -/
theorem test_decode_ddate_2075 :
    decode ⟨.dosDateDecoder, 0b1011111_1011_11101#16⟩ = .ddate 95#7 11#4 29#5 := by decide

/-- V-D45, V-D46, V-D47: single bits of each date field. -/
theorem test_decode_ddate_single_bits :
    decode ⟨.dosDateDecoder, 0b0000001_0000_00000#16⟩ = .ddate 1#7 0#4 0#5 ∧
    decode ⟨.dosDateDecoder, 0b0000000_1000_00000#16⟩ = .ddate 0#7 8#4 0#5 ∧
    decode ⟨.dosDateDecoder, 0b0000000_0000_10000#16⟩ = .ddate 0#7 0#4 16#5 := by decide

/-- The bytes of program 1: 0x7D 0x47 on the time unit, 0x5D 0x08 on the date unit. -/
theorem test_decodeBytes_program_one :
    (match decodeBytes [0x7D#8, 0x47#8, 0#8, 0x5D#8, 0x08#8, 1#8] with
      | .ok (i, rest) =>
        (match decodeBytes rest with
          | .ok (j, []) => some (i, j)
          | _ => none)
      | .error _ => none) = some (.dtime 8#5 59#6 29#5, .ddate 4#7 2#4 29#5) := by decide

/-- The words of the two encoded instructions, R52 and S1.3. -/
theorem test_encode_words :
    encode (.dtime 23#5 59#6 29#5) = [0x7D#8, 0xBF#8, 0#8] ∧
    encode (.ddate 127#7 12#4 31#5) = [0x9F#8, 0xFF#8, 1#8] := by decide

/-- The host's numbering: a row's 16 bits name the time unit, bit 16 the date unit, and no third unit exists. -/
theorem test_decodeTableWord :
    decodeTableWord 16 0x477D = some (.dtime 8#5 59#6 29#5) ∧
    decodeTableWord 24 0x1085D = some (.ddate 4#7 2#4 29#5) ∧
    decodeTableWord 24 0x2085D = none ∧ decodeTableWord 16 0x10000 = none ∧ decodeTableWord 32 0 = none := by
  decide

/-! ## Well-formedness: each check refuses an ill-formed term -/

theorem test_wellFormed_accepts :
    (Instr.dtime 31#5 63#6 31#5).wellFormed = true ∧ (Instr.ddate 127#7 15#4 31#5).wellFormed = true ∧
    frameWellFormed [0x7D#8, 0xBF#8, 1#8] = true := by decide

theorem test_wellFormed_refuses_short_frame :
    frameLongEnough [0x7D#8, 0xBF#8] = false ∧ frameWellFormed [0x7D#8, 0xBF#8] = false := by decide

theorem test_wellFormed_refuses_third_unit :
    frameNamesUnit [0x7D#8, 0xBF#8, 2#8] = false ∧ frameWellFormed [0x7D#8, 0xBF#8, 2#8] = false := by decide

/-! ## One step -/

/-- The state after reset with a stimulus line presented. -/
def presented (u : UnitName) (w : Word) : State := State.reset.present ⟨u, w⟩

/-- The state after one step. -/
def after (s : State) : Option State :=
  match step s with
  | .next t => some t
  | .fault _ => none
  | .refused _ => none

/-- V-T16, 12:34:56. -/
theorem test_dtime_mixed_fields :
    (after (presented .dosTimeDecoder 0x645C#16)).map (fun t => (t.timeValid, t.hour, t.minute, t.second)) =
      some (1#1, 0x0C#8, 0x22#8, 0x38#8) := by decide

/-- V-T19: only the seconds are bad, and the good fields are not reported. -/
theorem test_dtime_leap_second_rejected :
    (after (presented .dosTimeDecoder 0xBF7E#16)).map (fun t => (t.timeValid, t.hour, t.minute, t.second)) =
      some (0#1, 0x00#8, 0x00#8, 0x00#8) := by decide

/-- V-D3, 2107-12-31. -/
theorem test_ddate_last_valid :
    (after (presented .dosDateDecoder 0xFF9F#16)).map (fun t => (t.dateValid, t.year, t.month, t.day)) =
      some (1#1, 0x083B#16, 0x000C#16, 0x001F#16) := by decide

/-- V-D21: 2100 is no leap year. -/
theorem test_ddate_2100_no_leap_day :
    (after (presented .dosDateDecoder 0xF05D#16)).map (fun t => (t.dateValid, t.year, t.month, t.day)) =
      some (0#1, 0x0000#16, 0x0000#16, 0x0000#16) := by decide

/-- From the review of R17: a time word is presented after reset, then a date word, before any step; the time outputs
are the time word's (V-T18, no value) and the date outputs the date word's. -/
theorem test_present_time_then_date_shows_both :
    ((presented .dosTimeDecoder 0xFFFF#16).present ⟨.dosDateDecoder, 0xBF7D#16⟩).timeValid = 0#1 ∧
    ((presented .dosTimeDecoder 0xFFFF#16).present ⟨.dosDateDecoder, 0xBF7D#16⟩).dateView = some ⟨2075, 11, 29⟩ := by
  decide

/-- The host's presentation of a date word. -/
theorem test_withFetchWord_presents :
    State.reset.withFetchWord 24 0x1085D = presented .dosDateDecoder 0x085D#16 ∧
    State.reset.withFetchWord 16 0x477D = presented .dosTimeDecoder 0x477D#16 ∧
    State.reset.withFetchWord 24 0x2085D = State.reset := by decide

/-! ## Witnesses: the hypotheses of each statement can be met -/

theorem witness_DecodeRecoversEncodedInstruction :
    (Instr.dtime 24#5 60#6 30#5).wellFormed = true ∧ (Instr.ddate 120#7 2#4 29#5).wellFormed = true := by decide

theorem witness_FramesAreReadOrRejectedByName : [0x7D#8, (0xBF#8 : Byte)].length < 3 := by decide

theorem witness_TimeOperandsFollowFieldLayout :
    (after (presented .dosTimeDecoder 0xBF7D#16)).map (·.timeValid) = some 1#1 := by decide

theorem witness_DateOperandsFollowFieldLayout :
    (after (presented .dosDateDecoder 0xFF9F#16)).map (·.dateValid) = some 1#1 := by decide

theorem witness_StepRunsDecodedInstruction :
    (presented .dosDateDecoder 0xBF7D#16).selected = .dosDateDecoder ∧
    (presented .dosDateDecoder 0xBF7D#16).inputOf .dosDateDecoder = 0xBF7D#16 ∧
    (presented .dosDateDecoder 0xBF7D#16).inputOf .dosTimeDecoder = 0x0000#16 ∧
    decodeBytes [lowByte 0xBF7D#16, highByte 0xBF7D#16, unitByte .dosDateDecoder] = .ok (.ddate 95#7 11#4 29#5, []) ∧
    decodeBytes [lowByte 0x0000#16, highByte 0x0000#16, unitByte .dosTimeDecoder] = .ok (.dtime 0#5 0#6 0#5, []) ∧
    (Instr.ddate 95#7 11#4 29#5).wellFormed = true ∧ (Instr.dtime 0#5 0#6 0#5).wellFormed = true ∧
    (presented .dosDateDecoder 0xBF7D#16).settledOn .dosTimeDecoder = true :=
  ⟨rfl, rfl, rfl, rfl, rfl, rfl, rfl, by decide⟩

/-- A state that shows, under zero inputs, outputs no step ever drives: noon under no value, and a date. -/
def unreachedOutputs : State :=
  { State.reset with hour := 0x0C#8, timeValid := 0#1, year := 0x07BC#16, month := 0x0001#16, dateValid := 1#1 }

/-- Two states that agree on the inputs and the selection and on no output. -/
theorem witness_OldOutputsReachNoLaterState :
    State.reset.dosTime = unreachedOutputs.dosTime ∧ State.reset.dosDate = unreachedOutputs.dosDate ∧
    State.reset.selected = unreachedOutputs.selected ∧ State.reset ≠ unreachedOutputs := by decide

theorem witness_PresentedTableWordRunsNext :
    decodeTableWord 16 0xFFFF = some (.dtime 31#5 63#6 31#5) ∧
    decodeTableWord 24 0x1FFFF = some (.ddate 127#7 15#4 31#5) := by decide

theorem witness_EvaluationWritesOnlyItsUnitsOutputs :
    (∃ t, exec (.dtime 23#5 59#6 29#5) State.reset = .next t) ∧
    (∃ t, exec (.ddate 0#7 2#4 30#5) State.reset = .next t) := ⟨⟨_, rfl⟩, ⟨_, rfl⟩⟩

/-- The boundary words of R57, R58 and R59, and a word that gives no value. -/
theorem witness_InvalidTimeWordsAreExactlyOutOfRangeFields :
    (after (presented .dosTimeDecoder 0xC77D#16)).map (·.timeView) = some none ∧
    (presented .dosTimeDecoder 0xC77D#16).dateSettled = true ∧
    (0xC77D#16).toNat >>> 11 &&& 0x1F = 24 ∧ (0xBF9D#16).toNat >>> 5 &&& 0x3F = 60 ∧
    (0xBF7E#16).toNat &&& 0x1F = 30 := by decide

/-- The limits of the three fields, and the smallest fields. -/
theorem witness_InRangeTimeFieldsEmitTheirValue :
    (presented .dosTimeDecoder 0xBF7D#16).dosTime = timeWord 23#5 59#6 29#5 ∧
    (23#5).toNat ≤ 23 ∧ (59#6).toNat ≤ 59 ∧ (29#5).toNat ≤ 29 ∧
    (presented .dosTimeDecoder 0x0000#16).dosTime = timeWord 0#5 0#6 0#5 := by decide

theorem witness_ValidTimeIsTheWordsFields :
    decodeTime 0xBF7D#16 = some ⟨23, 59, 58⟩ ∧ (0xBF7D#16).toNat >>> 11 &&& 0x1F ≤ 23 ∧
    (0xBF7D#16).toNat >>> 5 &&& 0x3F ≤ 59 ∧ (0xBF7D#16).toNat &&& 0x1F ≤ 29 ∧
    (decodeTime 0xBF7D#16).isSome = true := by decide

theorem witness_OnlyValidBitTellsMidnightFromNoValue :
    (presented .dosTimeDecoder 0x0000#16).dosTime = 0x0000#16 := by decide

/-- A word of each clause of R48 that gives no value: the zero word, month 13, day 0, 30 February of a leap year,
29 February of another, 31 April. A day above 31 does not fit the field. -/
theorem witness_InvalidDateWordsAreExactlyThoseListed :
    [0x0000#16, 0x01A1#16, 0x0020#16, 0x005E#16, 0x025D#16, 0x009F#16].map
      (fun w => (after (presented .dosDateDecoder w)).map (fun t => (t.timeSettled, t.dateView))) =
    List.replicate 6 (some (true, none)) := by decide

theorem witness_YearIsOffsetPlus1980ForEveryOffset :
    (after (presented .dosDateDecoder 0xFF9F#16)).map (·.dateValid) = some 1#1 ∧
    (after (presented .dosDateDecoder 0x0021#16)).map (·.dateValid) = some 1#1 := by decide

/-- 29 February 1984, the last day accepted, and 30 February 1984, the first rejected; a month that is not February. -/
theorem witness_CalendarCheckDecidesTheDate :
    [0x085D#16, 0x085E#16].map (fun w =>
      (decide (Month.february.number = (presented .dosDateDecoder w).dosDate.toNat >>> 5 &&& 0x0F),
      decide (1 ≤ (presented .dosDateDecoder w).dosDate.toNat &&& 0x1F))) =
      List.replicate 2 (true, true) ∧
    Month.april ≠ .february := by decide

theorem witness_ValidDateIsTheWordsFields :
    decodeDate 0x085D#16 = some ⟨1984, 2, 29⟩ ∧ Month.february.number = (0x085D#16).toNat >>> 5 &&& 0x0F ∧
    1 ≤ (0x085D#16).toNat &&& 0x1F ∧
    (0x085D#16).toNat &&& 0x1F ≤ monthLength (1980 + ((0x085D#16).toNat >>> 9 &&& 0x7F)) .february ∧
    (decodeDate 0x085D#16).isSome = true ∧ decodeDate 0x085D#16 = decodeDate 0x085D#16 := by decide

/-- Boundary operands: January and December, the first and the last day, and 29 February 2100, which is rejected. -/
theorem witness_ImpossibleDatesAreRejected :
    1 ≤ (1#4).toNat ∧ (1#4).toNat ≤ 12 ∧ 1 ≤ (1#5).toNat ∧ 1 ≤ (12#4).toNat ∧ (12#4).toNat ≤ 12 ∧ 1 ≤ (31#5).toNat ∧
    (after (presented .dosDateDecoder (dateWord 120#7 2#4 29#5))).map (·.dateValid) = some 0#1 := by decide

theorem witness_InvalidWordsAreIndistinguishable :
    decodeTime 0xC77D#16 = none ∧ decodeTime 0xFFFF#16 = none ∧
    decodeDate 0x005E#16 = none ∧ decodeDate 0xFFFF#16 = none := by decide

theorem witness_StepKeepsOutputRanges :
    (presented .dosDateDecoder 0xFF9F#16).outputsInRange = true ∧
    (∃ t, step (presented .dosDateDecoder 0xFF9F#16) = .next t) ∧
    (∃ t, exec (.ddate 0#7 2#4 30#5) (presented .dosDateDecoder 0xFF9F#16) = .next t) :=
  ⟨by decide, ⟨_, rfl⟩, ⟨_, rfl⟩⟩

/-- The first hypothesis is met from a state whose outputs are no functions of its inputs, too. -/
theorem witness_EvaluationSettlesItsUnit :
    unreachedOutputs.timeSettled = false ∧ unreachedOutputs.dateSettled = false ∧
    (∃ t, step unreachedOutputs = .next t) ∧ State.reset.settled = true ∧
    (∃ t, exec (decode ⟨.dosDateDecoder, State.reset.inputOf .dosDateDecoder⟩) State.reset = .next t) :=
  ⟨by decide, by decide, ⟨_, rfl⟩, by decide, ⟨_, rfl⟩⟩

theorem witness_UnitsAreIndependent :
    (presented .dosDateDecoder 0xFF9F#16).dateSettled = true ∧
    (presented .dosDateDecoder 0xFF9F#16).timeSettled = true := by decide

/-- Two states that agree on one input word and differ elsewhere. -/
theorem witness_OutputsDependOnOwnInputOnly :
    (presented .dosTimeDecoder 0xBF7D#16).dosTime =
      ((presented .dosDateDecoder 0xFF9F#16).present ⟨.dosTimeDecoder, 0xBF7D#16⟩).dosTime ∧
    (presented .dosDateDecoder 0xFF9F#16).dosDate =
      ((presented .dosTimeDecoder 0xBF7D#16).present ⟨.dosDateDecoder, 0xFF9F#16⟩).dosDate := by decide

end Sys2Proof.Tests
end

/-! # The machine as a whole: steps, ports, settled states and runs

Rules about the frame reader, the option view of the ports, settled states and presented words, and the statements
that follow from them: what a step runs (O9), what the ports carry after it (O18), which states are settled (O40) and
what a run answers (O42). -/

/-! ## The frame of a word -/

namespace Sys2Proof

/-- R28: the two bytes of a word assemble to that word. -/
@[simp] theorem assembleWord_lowByte_highByte (w : Word) : assembleWord (lowByte w) (highByte w) = w := by
  ext k hk
  by_cases h8 : k < 8
  · simp [assembleWord, lowByte, highByte, h8, BitVec.getLsbD_eq_getElem hk]
  · have hlt : k - 8 < 8 := by omega
    have hadd : 8 + (k - 8) = k := by omega
    simp [assembleWord, lowByte, highByte, h8, hlt, hadd, hk]

/-- The three bytes of a stimulus line decode to the instruction of that line (log entry 2). -/
@[simp] theorem decodeBytes_frame (st : Stimulus) :
    decodeBytes [lowByte st.word, highByte st.word, unitByte st.unit] = .ok (decode st, []) := by
  simp [decodeBytes, stimulusOfBytes_cons]

/-- The only instruction that a stimulus line's three bytes can be read as. -/
theorem eq_decode_of_decodeBytes_frame {u : UnitName} {w : Word} {i : Instr}
    (h : decodeBytes [lowByte w, highByte w, unitByte u] = .ok (i, [])) : i = decode ⟨u, w⟩ := by
  rw [decodeBytes_frame ⟨u, w⟩] at h
  cases h
  rfl

end Sys2Proof

namespace Sys2Proof.Machine

/-! ## One instruction -/

/-- What a word's own instruction does on the time unit: its outcome is driven. -/
theorem exec_decode_time (w : Word) (s : State) :
    exec (decode ⟨.dosTimeDecoder, w⟩) s = .next (driveTime (decodeTime w) s) := rfl

/-- What a word's own instruction does on the date unit: its outcome is driven. -/
theorem exec_decode_date (w : Word) (s : State) :
    exec (decode ⟨.dosDateDecoder, w⟩) s = .next (driveDate (decodeDate w) s) := rfl

/-- Every instruction answers a next state and keeps both inputs and the selection (R27, R85). -/
theorem exec_next_keeps_inputs (i : Instr) (s : State) :
    ∃ t, exec i s = .next t ∧ t.dosTime = s.dosTime ∧ t.dosDate = s.dosDate ∧ t.selected = s.selected := by
  cases i with
  | dtime h m t => exact ⟨_, exec_dtime h m t s, rfl, rfl, rfl⟩
  | ddate o m d => exact ⟨_, exec_ddate o m d s, rfl, rfl, rfl⟩

/-- A port's word depends on the two inputs alone. -/
theorem inputOf_congr {s t : State} (ht : t.dosTime = s.dosTime) (hd : t.dosDate = s.dosDate) (u : UnitName) :
    t.inputOf u = s.inputOf u := by
  cases u with
  | dosTimeDecoder => exact ht
  | dosDateDecoder => exact hd

/-- A step is two instructions, both read from the inputs it starts with. -/
theorem step_eq_exec_fetch_then_fetchOther (s : State) :
    ∃ t, exec (fetch s) s = .next t ∧ step s = exec (fetchOther s) t := by
  obtain ⟨t, hexec, ht, hd, hsel⟩ := exec_next_keeps_inputs (fetch s) s
  have hother : fetchOther t = fetchOther s := by
    simp only [fetchOther, hsel, inputOf_congr ht hd]
  exact ⟨t, hexec, by simp only [step, hexec, hother]⟩

/-! ## The option view of the ports -/

/-- A number that fits an 8-bit port is read back from it. -/
theorem zext8_toNat {n : Nat} (h : n < 256) : (zext8 n).toNat = n := Nat.mod_eq_of_lt h

/-- A number that fits a 16-bit port is read back from it. -/
theorem zext16_toNat {n : Nat} (h : n < 65536) : (zext16 n).toNat = n := Nat.mod_eq_of_lt h

/-- The numbers of a decoded time (R60). -/
theorem decodeTime_bounds {w : Word} {v : TimeValue} (h : decodeTime w = some v) :
    v.hour ≤ 23 ∧ v.minute ≤ 59 ∧ v.second ≤ 58 := by
  unfold decodeTime at h
  obtain ⟨hh, hm, ht, hsome⟩ | ⟨-, hnone⟩ := timeResult_cases (hoursField w) (minutesField w) (twoSecField w)
  · have hs : (twoSecField w).toNat * 2 ≤ 58 := by omega
    cases hsome.symm.trans h
    exact ⟨hh, hm, hs⟩
  · cases hnone.symm.trans h

/-- The numbers of a decoded date (R72, R76). -/
theorem decodeDate_bounds {w : Word} {v : DateValue} (h : decodeDate w = some v) :
    v.year ≤ 2107 ∧ v.month ≤ 12 ∧ v.day ≤ 31 := by
  unfold decodeDate at h
  obtain ⟨m, hm, -, hday, hsome⟩ | ⟨-, hnone⟩ := dateResult_cases (yearOffsetField w) (monthField w) (dayField w)
  · have hmonth := Month.ofNumber_some hm ▸ m.number_range.2
    have hlength := (monthLength_range (yearOf (yearOffsetField w)) m).2
    cases hsome.symm.trans h
    exact ⟨yearOf_le _, hmonth, hday.trans hlength⟩
  · cases hnone.symm.trans h

/-- Driven time ports are read as the outcome of the word: every number of it fits 8 bits (R13, R60). -/
@[simp] theorem timeView_driveTime_decodeTime (w : Word) (s : State) :
    (driveTime (decodeTime w) s).timeView = decodeTime w := by
  cases hw : decodeTime w with
  | none => rfl
  | some v =>
    obtain ⟨hh, hm, hs⟩ := decodeTime_bounds hw
    simp [driveTime_some, State.timeView, underValid, zext8_toNat (n := v.hour) (by omega),
      zext8_toNat (n := v.minute) (by omega), zext8_toNat (n := v.second) (by omega)]

/-- Driven date ports are read as the outcome of the word: every number of it fits 16 bits (R13, R72). -/
@[simp] theorem dateView_driveDate_decodeDate (w : Word) (s : State) :
    (driveDate (decodeDate w) s).dateView = decodeDate w := by
  cases hw : decodeDate w with
  | none => rfl
  | some v =>
    obtain ⟨hy, hm, hd⟩ := decodeDate_bounds hw
    simp [driveDate_some, State.dateView, underValid, zext16_toNat (n := v.year) (by omega),
      zext16_toNat (n := v.month) (by omega), zext16_toNat (n := v.day) (by omega)]

/-- The date unit's outputs do not enter the time view (R27). -/
@[simp] theorem timeView_driveDate (r : Option DateValue) (s : State) : (driveDate r s).timeView = s.timeView := rfl

/-- What settled outputs show, unit by unit. -/
@[simp] theorem settle_timeView (s : State) : (settle s).timeView = decodeTime s.dosTime := by
  simp [settle]

@[simp] theorem settle_dateView (s : State) : (settle s).dateView = decodeDate s.dosDate := by
  simp [settle]

@[simp] theorem settle_viewOf (s : State) (u : UnitName) :
    (settle s).viewOf u = outcomeOf ⟨u, s.inputOf u⟩ := by
  cases u <;> simp [State.viewOf, outcomeOf]

/-! ## Presented words -/

/-- A driven port carries the word of its line. -/
@[simp] theorem driveInput_inputOf (s : State) (st : Stimulus) : (s.driveInput st).inputOf st.unit = st.word := by
  obtain ⟨u, w⟩ := st
  cases u <;> rfl

/-- From the moment a word is presented, its unit shows its outcome (R103, R107). -/
@[simp] theorem present_viewOf (s : State) (st : Stimulus) : (s.present st).viewOf st.unit = outcomeOf st := by
  simp [State.present]

/-- One stimulus line is answered by presenting it: the step after it finds the outputs settled. -/
theorem evaluate_eq (s : State) (st : Stimulus) : evaluate s st = .next (s.present st) := by
  simp [evaluate, step_eq, State.present]

/-! ## Settled states -/

/-- A unit is settled when driving its outcome changes nothing. -/
theorem timeSettled_iff (s : State) : s.timeSettled = true ↔ driveTime (decodeTime s.dosTime) s = s :=
  decide_eq_true_iff

theorem dateSettled_iff (s : State) : s.dateSettled = true ↔ driveDate (decodeDate s.dosDate) s = s :=
  decide_eq_true_iff

/-- Where the date unit is settled, settling is driving the time unit. -/
theorem settle_eq_driveTime {s : State} (h : s.dateSettled = true) :
    settle s = driveTime (decodeTime s.dosTime) s := by
  rw [settle, ← driveTime_driveDate, (dateSettled_iff s).mp h]

/-- Where the time unit is settled, settling is driving the date unit. -/
theorem settle_eq_driveDate {s : State} (h : s.timeSettled = true) :
    settle s = driveDate (decodeDate s.dosDate) s := by
  rw [settle, (timeSettled_iff s).mp h]

/-- Settling settles both units. -/
@[simp] theorem settle_settled (s : State) : (settle s).settled = true := by
  have htime : (settle s).timeSettled = true := (timeSettled_iff _).mpr rfl
  have hdate : (settle s).dateSettled = true := (dateSettled_iff _).mpr rfl
  simp [State.settled, htime, hdate]

/-- Settled states are the fixed points of settling. -/
theorem settled_iff (s : State) : s.settled = true ↔ settle s = s := by
  constructor
  · intro h
    obtain ⟨htime, hdate⟩ := (Bool.and_eq_true_iff).mp h
    rw [settle_eq_driveDate htime, (dateSettled_iff s).mp hdate]
  · intro h
    rw [← h]
    exact settle_settled s

theorem settledOn_of_settled {s : State} (h : s.settled = true) (u : UnitName) : s.settledOn u = true := by
  obtain ⟨htime, hdate⟩ := (Bool.and_eq_true_iff).mp h
  cases u with
  | dosTimeDecoder => exact htime
  | dosDateDecoder => exact hdate

/-- Where the other unit is settled, a unit's own instruction settles the whole state. -/
theorem exec_decode_inputOf {s : State} {u : UnitName} (h : s.settledOn (otherUnit u) = true) :
    exec (decode ⟨u, s.inputOf u⟩) s = .next (settle s) := by
  cases u with
  | dosTimeDecoder => rw [inputOf_time, exec_decode_time, settle_eq_driveTime h]
  | dosDateDecoder => rw [inputOf_date, exec_decode_date, settle_eq_driveDate h]

/-! ## The statements -/

/-- Settles O18: a step settles both units, and settled ports are read as their words' outcomes. -/
theorem portsCarryOptionResult : Obligations.PortsCarryOptionResult := fun s =>
  ⟨settle s, step_eq s, settle_timeView s, settle_dateView s, settle_viewOf s⟩

/-- Settles O40: steps, presented words and a settled state's own instructions all end in `settle` of a state, and
the settled states are its fixed points. -/
theorem evaluationSettlesItsUnit : Obligations.EvaluationSettlesItsUnit := by
  refine ⟨fun s t hstep => ?step, fun s st => ?present, fun s hs => ?fixed, fun s t u hs hexec => ?exec⟩
  case step =>
    cases (step_eq s).symm.trans hstep
    exact settle_settled s
  case present => exact settle_settled (s.driveInput st)
  case fixed => rw [step_eq, (settled_iff s).mp hs]
  case exec =>
    cases (exec_decode_inputOf (settledOn_of_settled hs _)).symm.trans hexec
    exact settle_settled s

/-- Settles O42, by induction on the lines: each line is answered by presenting it, from whatever state the lines
before it left. -/
theorem runsGiveEachLineItsOwnOutcome : Obligations.RunsGiveEachLineItsOwnOutcome := by
  intro lines
  induction lines with
  | nil => exact fun s => ⟨s, rfl⟩
  | cons st rest ih =>
    intro s
    obtain ⟨t, hrest⟩ := ih (s.present st)
    exact ⟨t, by simp [runLines, evaluate_eq, hrest]⟩

/-- Settles O9: the two frames name the fetched instructions, and where the other unit is settled the first of them
already settles the state. -/
theorem stepRunsDecodedInstruction : Obligations.StepRunsDecodedInstruction := by
  intro s i j hi hj _ _
  have hfetch : i = fetch s := eq_decode_of_decodeBytes_frame hi
  have hother : j = fetchOther s := eq_decode_of_decodeBytes_frame hj
  subst hfetch hother
  refine ⟨step_eq_exec_fetch_then_fetchOther s, fun hsettled => ?_⟩
  rw [step_eq, fetch_eq, exec_decode_inputOf hsettled]

end Sys2Proof.Machine

/-! # The outputs: their invariants, and what they do not depend on

Rules about the legal values a unit computes, the ports in range, the high bits no value reaches, and the frames of
driving and presenting, and the statements that follow from them: the output invariants (O39, O38, O41), presented
words (O11, O43), and all that an output does not depend on (O12, O13, O45, O14, O17). -/

namespace Sys2Proof.Machine

/-! ## The values a unit computes -/

/-- The number of a month names that month (R70). -/
@[simp] theorem Month.ofNumber_number (m : Month) : Month.ofNumber? m.number = some m := by
  cases m <;> rfl

/-- A computed time is a time of day with an even second, whatever the raw fields were (R56, R60). -/
theorem timeResult_some_legal {h : BitVec 5} {m : BitVec 6} {t : BitVec 5} {v : TimeValue}
    (hv : timeResult h m t = some v) : v.hour ≤ 23 ∧ v.minute ≤ 59 ∧ v.second ≤ 58 ∧ v.second % 2 = 0 := by
  obtain ⟨hh, hm, ht, hsome⟩ | ⟨-, hnone⟩ := timeResult_cases h m t
  · have hs : t.toNat * 2 ≤ 58 := by omega
    cases hsome.symm.trans hv
    exact ⟨hh, hm, hs, Nat.mul_mod_left _ 2⟩
  · cases hnone.symm.trans hv

/-- A computed date is a day of the calendar from 1980 to 2107, whatever the raw fields were (R67, R72, R73). -/
theorem dateResult_some_legal {o : BitVec 7} {mr : BitVec 4} {d : BitVec 5} {v : DateValue}
    (hv : dateResult o mr d = some v) :
    1980 ≤ v.year ∧ v.year ≤ 2107 ∧ ∃ m : Month, m.number = v.month ∧ 1 ≤ v.day ∧ v.day ≤ monthLength v.year m := by
  obtain ⟨m, hm, hday, hlength, hsome⟩ | ⟨-, hnone⟩ := dateResult_cases o mr d
  · cases hsome.symm.trans hv
    exact ⟨Nat.le_add_right 1980 _, yearOf_le o, m, Month.ofNumber_some hm, hday, hlength⟩
  · cases hnone.symm.trans hv

/-! ## Ports in range -/

/-- The two ways the time ports can be in range (R24 with decision D6). -/
theorem timeInRange_iff (s : State) :
    s.timeInRange = true ↔
      (s.timeValid = 1#1 ∧ s.hour.toNat ≤ 23 ∧ s.minute.toNat ≤ 59 ∧ s.second.toNat ≤ 58 ∧ s.second.toNat % 2 = 0) ∨
      (s.timeValid = 0#1 ∧ s.hour = 0#8 ∧ s.minute = 0#8 ∧ s.second = 0#8) := by
  rcases BitVec.eq_zero_or_eq_one s.timeValid with hv | hv <;> simp [State.timeInRange, hv]

/-- The two ways the date ports can be in range (R24 with decision D6). -/
theorem dateInRange_iff (s : State) :
    s.dateInRange = true ↔
      (s.dateValid = 1#1 ∧ 1980 ≤ s.year.toNat ∧ s.year.toNat ≤ 2107 ∧
        ∃ m : Month, m.number = s.month.toNat ∧ 1 ≤ s.day.toNat ∧ s.day.toNat ≤ monthLength s.year.toNat m) ∨
      (s.dateValid = 0#1 ∧ s.year = 0#16 ∧ s.month = 0#16 ∧ s.day = 0#16) := by
  rcases BitVec.eq_zero_or_eq_one s.dateValid with hv | hv
  · simp [State.dateInRange, hv]
  · cases hm : Month.ofNumber? s.month.toNat with
    | none =>
      have hno : ∀ m : Month, m.number ≠ s.month.toNat := fun m hnum => by simp [← hnum] at hm
      simp [State.dateInRange, hv, hm, hno]
    | some m =>
      have hiff : ∀ k : Month, k.number = s.month.toNat ↔ k = m := fun k =>
        ⟨fun hnum => by simpa [← hnum] using hm, fun hk => hk ▸ Month.ofNumber_some hm⟩
      simp [State.dateInRange, hv, hm, hiff, and_assoc]

/-- Both units' ports are in range when each unit's are. -/
theorem outputsInRange_iff (s : State) : s.outputsInRange = true ↔ s.timeInRange = true ∧ s.dateInRange = true :=
  Bool.and_eq_true_iff

/-- A unit's range is judged on its own ports: the other unit's outcome does not enter (R27). -/
@[simp] theorem timeInRange_driveDate (r : Option DateValue) (s : State) :
    (driveDate r s).timeInRange = s.timeInRange := rfl

@[simp] theorem dateInRange_driveTime (r : Option TimeValue) (s : State) :
    (driveTime r s).dateInRange = s.dateInRange := rfl

/-- Every outcome of the time unit drives its ports into range, from any state (R56, R64). -/
@[simp] theorem timeInRange_driveTime_timeResult (h : BitVec 5) (m : BitVec 6) (t : BitVec 5) (s : State) :
    (driveTime (timeResult h m t) s).timeInRange = true := by
  rw [timeInRange_iff]
  cases hv : timeResult h m t with
  | none => exact .inr ⟨rfl, rfl, rfl, rfl⟩
  | some v =>
    obtain ⟨hh, hm, hs, heven⟩ := timeResult_some_legal hv
    left
    simp only [driveTime_some, setTimePorts_timeValid, setTimePorts_hour, setTimePorts_minute, setTimePorts_second,
      zext8_toNat (n := v.hour) (by omega), zext8_toNat (n := v.minute) (by omega),
      zext8_toNat (n := v.second) (by omega), true_and]
    exact ⟨hh, hm, hs, heven⟩

/-- Every outcome of the date unit drives its ports into range, from any state (R67, R81). -/
@[simp] theorem dateInRange_driveDate_dateResult (o : BitVec 7) (mr : BitVec 4) (d : BitVec 5) (s : State) :
    (driveDate (dateResult o mr d) s).dateInRange = true := by
  rw [dateInRange_iff]
  cases hv : dateResult o mr d with
  | none => exact .inr ⟨rfl, rfl, rfl, rfl⟩
  | some v =>
    obtain ⟨hmin, hmax, m, hnum, hday, hlength⟩ := dateResult_some_legal hv
    have hmonth := m.number_range
    have hlong := monthLength_range v.year m
    left
    simp only [driveDate_some, setDatePorts_dateValid, setDatePorts_year, setDatePorts_month, setDatePorts_day,
      zext16_toNat (n := v.year) (by omega), zext16_toNat (n := v.month) (by omega),
      zext16_toNat (n := v.day) (by omega), true_and]
    exact ⟨hmin, hmax, m, hnum, hday, hlength⟩

/-- Every instruction keeps both units' ports in range: it drives its own unit's into range and leaves the other's. -/
theorem exec_keeps_outputsInRange {i : Instr} {s t : State} (hs : s.outputsInRange = true)
    (hexec : exec i s = .next t) : t.outputsInRange = true := by
  obtain ⟨htime, hdate⟩ := (outputsInRange_iff s).mp hs
  rw [outputsInRange_iff]
  cases i with
  | dtime h m c =>
    cases (exec_dtime h m c s).symm.trans hexec
    exact ⟨timeInRange_driveTime_timeResult h m c s, hdate⟩
  | ddate o m d =>
    cases (exec_ddate o m d s).symm.trans hexec
    exact ⟨htime, dateInRange_driveDate_dateResult o m d s⟩

/-- Settled time ports are in range, whatever stood on them before. -/
theorem settle_timeInRange (s : State) : (settle s).timeInRange = true :=
  timeInRange_driveTime_timeResult _ _ _ s

/-- Settled date ports are in range, whatever stood on them before. -/
theorem settle_dateInRange (s : State) : (settle s).dateInRange = true :=
  dateInRange_driveDate_dateResult _ _ _ _

/-- Settled outputs are in range, so that steps and presented words need no hypothesis on the old outputs. -/
theorem settle_outputsInRange (s : State) : (settle s).outputsInRange = true :=
  (outputsInRange_iff _).mpr ⟨settle_timeInRange s, settle_dateInRange s⟩

/-! ## The high bits that no value reaches -/

/-- A slice that starts above a number's highest bit is 0. -/
theorem extractLsb'_eq_zero_of_toNat_lt {n start len : Nat} {x : BitVec n} (h : x.toNat < 2 ^ start) :
    x.extractLsb' start len = 0#len := by
  apply BitVec.eq_of_toNat_eq
  simp [BitVec.extractLsb'_toNat, Nat.shiftRight_eq_div_pow, Nat.div_eq_of_lt h]

/-- The lowest bit of an even number is 0. -/
theorem extractLsb'_zero_one_of_even {n : Nat} {x : BitVec n} (h : x.toNat % 2 = 0) :
    x.extractLsb' 0 1 = 0#1 := by
  apply BitVec.eq_of_toNat_eq
  simpa [BitVec.extractLsb'_toNat] using h

/-- Time ports in range are within the limits under either valid bit: no value drives zeros (decision D6). -/
theorem timePorts_le_of_timeInRange {s : State} (hs : s.timeInRange = true) :
    s.hour.toNat ≤ 23 ∧ s.minute.toNat ≤ 59 ∧ s.second.toNat ≤ 58 ∧ s.second.toNat % 2 = 0 := by
  obtain ⟨-, hlegal⟩ | ⟨-, hh, hm, hsec⟩ := (timeInRange_iff s).mp hs
  · exact hlegal
  · simp [hh, hm, hsec]

/-- Date ports in range are within the limits under either valid bit: no value drives zeros (decision D6). -/
theorem datePorts_le_of_dateInRange {s : State} (hs : s.dateInRange = true) :
    s.year.toNat ≤ 2107 ∧ s.month.toNat ≤ 12 ∧ s.day.toNat ≤ 31 := by
  obtain ⟨-, -, hyear, m, hnum, -, hday⟩ | ⟨-, hy, hm, hd⟩ := (dateInRange_iff s).mp hs
  · exact ⟨hyear, hnum ▸ m.number_range.2, hday.trans (monthLength_range _ m).2⟩
  · simp [hy, hm, hd]

/-! ## Driving and presenting: what stays and what does not enter -/

/-- A line drives its own unit's port only. -/
@[simp] theorem driveInput_inputOf_otherUnit (s : State) (st : Stimulus) :
    (s.driveInput st).inputOf (otherUnit st.unit) = s.inputOf (otherUnit st.unit) := by
  obtain ⟨u, w⟩ := st
  cases u <;> rfl

/-- Settling keeps what is on the input ports. -/
@[simp] theorem settle_inputOf (s : State) (u : UnitName) : (settle s).inputOf u = s.inputOf u := by
  cases u <;> rfl

/-- A presented line's word is on its unit's port. -/
@[simp] theorem present_inputOf (s : State) (st : Stimulus) : (s.present st).inputOf st.unit = st.word := by
  simp [State.present]

/-- The other port keeps its word. -/
@[simp] theorem present_inputOf_otherUnit (s : State) (st : Stimulus) :
    (s.present st).inputOf (otherUnit st.unit) = s.inputOf (otherUnit st.unit) := by
  simp [State.present]

/-- The other unit shows the outcome of its own, unchanged word (R27). -/
@[simp] theorem present_viewOf_otherUnit (s : State) (st : Stimulus) :
    (s.present st).viewOf (otherUnit st.unit) = outcomeOf ⟨otherUnit st.unit, s.inputOf (otherUnit st.unit)⟩ := by
  simp [State.present]

/-- States that agree on both inputs and the selection settle to one state: every output is a function of the
inputs (R17, R21). -/
theorem settle_congr {s s' : State} (htime : s.dosTime = s'.dosTime) (hdate : s.dosDate = s'.dosDate)
    (hsel : s.selected = s'.selected) : settle s = settle s' := by
  ext1 <;> simp only [settle_dosTime, settle_hour, settle_minute, settle_second, settle_timeValid, settle_dosDate,
    settle_year, settle_month, settle_day, settle_dateValid, settle_selected, htime, hdate, hsel]

/-- States that agree on both inputs are presented a word to one state; the line brings its own selection. -/
theorem present_congr {s s' : State} (htime : s.dosTime = s'.dosTime) (hdate : s.dosDate = s'.dosDate)
    (st : Stimulus) : s.present st = s'.present st := by
  obtain ⟨u, w⟩ := st
  cases u with
  | dosTimeDecoder => exact settle_congr rfl hdate rfl
  | dosDateDecoder => exact settle_congr htime rfl rfl

/-- The selection does not enter `settle`; it is carried through (R27, log entry 1). -/
theorem settle_select (s : State) (u : UnitName) :
    settle { s with selected := u } = { settle s with selected := u } := rfl

/-- The second of two words on one unit takes the place of the first. -/
@[simp] theorem present_present_same (s : State) (u : UnitName) (w w' : Word) :
    (s.present ⟨u, w⟩).present ⟨u, w'⟩ = s.present ⟨u, w'⟩ := by
  cases u <;> rfl

/-- Words on different units can be presented in either order; the last line makes the selection. -/
theorem present_time_date_comm (s : State) (w v : Word) :
    { (s.present ⟨.dosTimeDecoder, w⟩).present ⟨.dosDateDecoder, v⟩ with selected := .dosTimeDecoder } =
      (s.present ⟨.dosDateDecoder, v⟩).present ⟨.dosTimeDecoder, w⟩ := rfl

/-- Where the date unit is settled, presenting a time word drives the time unit's ports and no other. -/
theorem present_time_of_dateSettled {s : State} (h : s.dateSettled = true) (w : Word) :
    s.present ⟨.dosTimeDecoder, w⟩ =
      driveTime (decodeTime w) { s with dosTime := w, selected := .dosTimeDecoder } := by
  have hdriven : driveDate (decodeDate s.dosDate) { s with dosTime := w, selected := .dosTimeDecoder } =
      { s with dosTime := w, selected := .dosTimeDecoder } :=
    congrArg (fun t : State => { t with dosTime := w, selected := .dosTimeDecoder }) ((dateSettled_iff s).mp h)
  rw [present_time, settle_eq_driveTime ((dateSettled_iff _).mpr hdriven)]

/-- Where the time unit is settled, presenting a date word drives the date unit's ports and no other. -/
theorem present_date_of_timeSettled {s : State} (h : s.timeSettled = true) (w : Word) :
    s.present ⟨.dosDateDecoder, w⟩ =
      driveDate (decodeDate w) { s with dosDate := w, selected := .dosDateDecoder } := by
  have hdriven : driveTime (decodeTime s.dosTime) { s with dosDate := w, selected := .dosDateDecoder } =
      { s with dosDate := w, selected := .dosDateDecoder } :=
    congrArg (fun t : State => { t with dosDate := w, selected := .dosDateDecoder }) ((timeSettled_iff s).mp h)
  rw [present_date, settle_eq_driveDate ((timeSettled_iff _).mpr hdriven)]

/-! ## The statements -/

/-- Settles O39: a step and a presented word settle both units, and settled outputs are in range; an instruction
drives its own unit's ports into range and keeps the other's. -/
theorem stepKeepsOutputRanges : Obligations.StepKeepsOutputRanges := by
  refine fun s hs => ⟨fun t hstep => ?step, fun i t hexec => ?exec, fun st => ?present⟩
  case step =>
    cases (step_eq s).symm.trans hstep
    exact settle_outputsInRange s
  case exec => exact exec_keeps_outputsInRange hs hexec
  case present => exact settle_outputsInRange (s.driveInput st)

/-- Settles O38: a step ends in `settle`, whose outputs are in range; the limits bound the ports under either valid
bit, which leaves the listed high bits 0. -/
theorem evaluatedOutputsMeetTheirInvariants : Obligations.EvaluatedOutputsMeetTheirInvariants := by
  refine ⟨fun s => ⟨settle s, step_eq s, ?_⟩, fun s => ⟨settle s, step_eq s, ?_⟩⟩
  · obtain ⟨hh, hm, hs, heven⟩ := timePorts_le_of_timeInRange (settle_timeInRange s)
    exact ⟨.inr ⟨hh, hm, hs, heven⟩, extractLsb'_eq_zero_of_toNat_lt (by omega),
      extractLsb'_eq_zero_of_toNat_lt (by omega), extractLsb'_eq_zero_of_toNat_lt (by omega),
      extractLsb'_zero_one_of_even heven⟩
  · obtain ⟨hy, hm, hd⟩ := datePorts_le_of_dateInRange (settle_dateInRange s)
    refine ⟨?_, extractLsb'_eq_zero_of_toNat_lt (by omega), extractLsb'_eq_zero_of_toNat_lt (by omega),
      extractLsb'_eq_zero_of_toNat_lt (by omega)⟩
    obtain ⟨-, hmin, hmax, m, hnum, hday, hlength⟩ | ⟨hvalid, -⟩ := (dateInRange_iff _).mp (settle_dateInRange s)
    · have hmonth := m.number_range
      exact .inr ⟨hmin, hmax, m, hnum, by omega, by omega, hday, hlength⟩
    · exact .inl hvalid

/-- Settles O11: presenting settles the driven state, which keeps the other port's word and which a step answers. -/
theorem presentedWordShowsItsOutcomeAtOnce : Obligations.PresentedWordShowsItsOutcomeAtOnce := by
  intro s st
  have hsettled : (s.present st).settled = true := settle_settled (s.driveInput st)
  exact ⟨present_viewOf s st, present_inputOf s st, present_inputOf_otherUnit s st, present_viewOf_otherUnit s st,
    hsettled, by rw [step_eq, (settled_iff _).mp hsettled]⟩

/-- Settles O12: neither settling nor presenting reads an output. -/
theorem oldOutputsReachNoLaterState : Obligations.OldOutputsReachNoLaterState := by
  intro s s' htime hdate hsel
  refine ⟨⟨settle s, step_eq s, ?_⟩, present_congr htime hdate⟩
  rw [step_eq, settle_congr htime hdate hsel]

/-- Settles O13: a step is `settle`, which carries the selection through and reads it nowhere. -/
theorem selectionEnablesNoUnit : Obligations.SelectionEnablesNoUnit := fun s u =>
  ⟨settle s, step_eq s, by rw [step_eq, settle_select]⟩

/-- Settles O43: each line is answered by presenting it, and the second word takes the first one's place. -/
theorem earlierWordLeavesNoTrace : Obligations.EarlierWordLeavesNoTrace := fun s u w w' =>
  ⟨s.present ⟨u, w⟩, s.present ⟨u, w'⟩, evaluate_eq s _, by rw [evaluate_eq, present_present_same], evaluate_eq s _⟩

/-- Settles O45: each line is answered by presenting it, which shows the other unit's word as before, drives no other
port where that unit is settled, and commutes but for the selection. -/
theorem unitsAreIndependent : Obligations.UnitsAreIndependent := by
  refine ⟨fun s w v => ⟨_, _, _, _, evaluate_eq s _, evaluate_eq _ _, evaluate_eq s _, evaluate_eq _ _,
    present_time_date_comm s w v, rfl, ?dateView, rfl, ?timeView, fun hdate => ?dateKept, fun htime => ?timeKept⟩,
    fun s => ⟨_, ?fixed, rfl, ?bothTime, ?bothDate⟩⟩
  case dateView => rw [present_time, settle_dateView]
  case timeView => rw [present_date, settle_timeView]
  case dateKept =>
    rw [present_time_of_dateSettled hdate]
    exact ⟨rfl, rfl, rfl, rfl⟩
  case timeKept =>
    rw [present_date_of_timeSettled htime]
    exact ⟨rfl, rfl, rfl, rfl⟩
  case fixed => rw [step_eq, present_date, settle_settle]
  case bothTime =>
    rw [present_date, settle_timeView]
    exact (by decide : decodeTime 0xBF7D#16 = some ⟨23, 59, 58⟩)
  case bothDate =>
    rw [present_date, settle_dateView]
    exact (by decide : decodeDate 0xBF7D#16 = some ⟨2075, 11, 29⟩)

/-- Settles O14: a step is `settle`, and each of the two operations drives its unit. -/
theorem everyEvaluationAnswersNext : Obligations.EveryEvaluationAnswersNext := by
  refine ⟨fun s => ⟨settle s, step_eq s⟩, fun i s => ?_⟩
  obtain ⟨t, hexec, -⟩ := exec_next_keeps_inputs i s
  exact ⟨t, hexec⟩

/-- Settles O17: each operation is a drive of its unit, whose frame is all the rest. -/
theorem evaluationWritesOnlyItsUnitsOutputs : Obligations.EvaluationWritesOnlyItsUnitsOutputs := by
  refine ⟨fun h m sec s t hexec => ?dtime, fun o m d s t hexec => ?ddate⟩
  case dtime =>
    cases (exec_dtime h m sec s).symm.trans hexec
    simp
  case ddate =>
    cases (exec_ddate o m d s).symm.trans hexec
    simp

/-- Settles O41: the first state shows what settling puts on the ports for zero inputs, so that its settledness and
its ranges are those of any settled state. -/
theorem resetShowsTheZeroWordsOutputs : Obligations.ResetShowsTheZeroWordsOutputs := by
  have hreset : settle State.reset = State.reset := by decide
  exact ⟨rfl, rfl, rfl, rfl, rfl, (settled_iff _).mpr hreset, hreset ▸ settle_outputsInRange State.reset⟩

end Sys2Proof.Machine

/-! # The bytes of a word

Rules about the word that two bytes of a disk image make, and the statement about its byte order (O5). -/

/-! ## Two bytes and their word -/

namespace Sys2Proof

/-- R28: the word is its two bytes side by side, the byte at the lower offset in bits 7:0. -/
theorem assembleWord_eq_append (b0 b1 : Byte) : assembleWord b0 b1 = b1 ++ b0 := by
  rw [assembleWord, ← BitVec.setWidth_append_eq_shiftLeft_setWidth_or, BitVec.setWidth_eq]

@[simp] theorem assembleWord_toNat (b0 b1 : Byte) : (assembleWord b0 b1).toNat = b1.toNat * 256 + b0.toNat := by
  rw [assembleWord_eq_append, BitVec.toNat_append, ← Nat.shiftLeft_add_eq_or_of_lt b0.isLt, Nat.shiftLeft_eq]

@[simp] theorem lowByte_assembleWord (b0 b1 : Byte) : lowByte (assembleWord b0 b1) = b0 := by
  rw [assembleWord_eq_append, lowByte, BitVec.extractLsb'_append_eq_right]

@[simp] theorem highByte_assembleWord (b0 b1 : Byte) : highByte (assembleWord b0 b1) = b1 := by
  rw [assembleWord_eq_append, highByte, BitVec.extractLsb'_append_eq_left]

end Sys2Proof

namespace Sys2Proof.Machine

/-- R56: a time is rejected exactly when one of its three raw fields is above its limit. -/
theorem timeResult_eq_none_iff {h : BitVec 5} {m : BitVec 6} {t : BitVec 5} :
    timeResult h m t = none ↔ 23 < h.toNat ∨ 59 < m.toNat ∨ 29 < t.toNat := by
  obtain ⟨hh, hm, ht, hresult⟩ | ⟨hlimit, hresult⟩ := timeResult_cases h m t
  · simp [hresult, hh, hm, ht]
  · simp [hresult, hlimit]

/-- The time unit's value is that of the instruction its word decodes to (R40, R56). -/
theorem decodeTime_of_decode {w : Word} {h : BitVec 5} {m : BitVec 6} {t : BitVec 5}
    (hdecode : decode ⟨.dosTimeDecoder, w⟩ = .dtime h m t) : decodeTime w = timeResult h m t := by
  cases (decode_time w).symm.trans hdecode
  rfl

/-- Settles O5: the assembled word is an append, of which the number and both bytes are read off; the two words of the
rule's example are assembled from their own bytes, and the swapped one has a count above 29. -/
theorem diskBytesAssembleLittleEndian : Obligations.DiskBytesAssembleLittleEndian := by
  have hswapped : decode ⟨.dosTimeDecoder, 0x7DBF#16⟩ = .dtime 15#5 45#6 31#5 := by decide
  refine ⟨fun b0 b1 => ⟨assembleWord_toNat b0 b1, lowByte_assembleWord b0 b1, highByte_assembleWord b0 b1⟩,
    assembleWord_lowByte_highByte 0xBF7D#16, assembleWord_lowByte_highByte 0x7DBF#16, hswapped, ?_⟩
  rw [decodeTime_of_decode hswapped, timeResult_eq_none_iff]
  exact .inr (.inr (by decide : 29 < (31#5).toNat))

end Sys2Proof.Machine

/-! # The encoding: fields, words and frames

Rules about the two field layouts of R42 and R43 and about the model's three-byte frame, and the statements that follow
from them: the round trips (O1, O2), the spec's worked words (O3), the frames (O4), the choice of the operation (O6) and
the presented table words (O10). -/

namespace Sys2Proof

/-! ## The fields of a word laid side by side -/

/-- The number of two bit vectors side by side. -/
theorem append_toNat_eq_mul_add {n k : Nat} (x : BitVec n) (y : BitVec k) :
    (x ++ y).toNat = x.toNat * 2 ^ k + y.toNat := by
  rw [BitVec.toNat_append, ← Nat.shiftLeft_add_eq_or_of_lt y.isLt, Nat.shiftLeft_eq]

theorem timeWord_eq_append (h : BitVec 5) (m : BitVec 6) (t : BitVec 5) : timeWord h m t = h ++ m ++ t := by
  rw [timeWord, ← BitVec.setWidth_eq (h ++ m ++ t), BitVec.setWidth_append_append_eq_shiftLeft_setWidth_or]

theorem dateWord_eq_append (o : BitVec 7) (m : BitVec 4) (d : BitVec 5) : dateWord o m d = o ++ m ++ d := by
  rw [dateWord, ← BitVec.setWidth_eq (o ++ m ++ d), BitVec.setWidth_append_append_eq_shiftLeft_setWidth_or]

/-- R52: TIMEWORD as arithmetic on the field values. -/
theorem timeWord_toNat (h : BitVec 5) (m : BitVec 6) (t : BitVec 5) :
    (timeWord h m t).toNat = h.toNat * 2048 + m.toNat * 32 + t.toNat := by
  rw [timeWord_eq_append, append_toNat_eq_mul_add, append_toNat_eq_mul_add]
  omega

/-- R52: DATEWORD as arithmetic on the field values. -/
theorem dateWord_toNat (o : BitVec 7) (m : BitVec 4) (d : BitVec 5) :
    (dateWord o m d).toNat = o.toNat * 512 + m.toNat * 32 + d.toNat := by
  rw [dateWord_eq_append, append_toNat_eq_mul_add, append_toNat_eq_mul_add]
  omega

/-- R42: the three time fields are read back from the word they make. -/
theorem fields_timeWord (h : BitVec 5) (m : BitVec 6) (t : BitVec 5) :
    hoursField (timeWord h m t) = h ∧ minutesField (timeWord h m t) = m ∧ twoSecField (timeWord h m t) = t := by
  have hm := m.isLt
  have ht := t.isLt
  refine ⟨BitVec.eq_of_toNat_eq ?_, BitVec.eq_of_toNat_eq ?_, BitVec.eq_of_toNat_eq ?_⟩
  · rw [hoursField_toNat, timeWord_toNat]; omega
  · rw [minutesField_toNat, timeWord_toNat]; omega
  · rw [twoSecField_toNat, timeWord_toNat]; omega

/-- R43: the three date fields are read back from the word they make. -/
theorem fields_dateWord (o : BitVec 7) (m : BitVec 4) (d : BitVec 5) :
    yearOffsetField (dateWord o m d) = o ∧ monthField (dateWord o m d) = m ∧ dayField (dateWord o m d) = d := by
  have hm := m.isLt
  have hd := d.isLt
  refine ⟨BitVec.eq_of_toNat_eq ?_, BitVec.eq_of_toNat_eq ?_, BitVec.eq_of_toNat_eq ?_⟩
  · rw [yearOffsetField_toNat, dateWord_toNat]; omega
  · rw [monthField_toNat, dateWord_toNat]; omega
  · rw [dayField_toNat, dateWord_toNat]; omega

/-- R42: the three time fields cover the whole word. -/
@[simp] theorem timeWord_fields (w : Word) : timeWord (hoursField w) (minutesField w) (twoSecField w) = w := by
  apply BitVec.eq_of_toNat_eq
  rw [timeWord_toNat, hoursField_toNat, minutesField_toNat, twoSecField_toNat]
  omega

/-- R43: the three date fields cover the whole word. -/
@[simp] theorem dateWord_fields (w : Word) : dateWord (yearOffsetField w) (monthField w) (dayField w) = w := by
  apply BitVec.eq_of_toNat_eq
  rw [dateWord_toNat, yearOffsetField_toNat, monthField_toNat, dayField_toNat]
  omega

/-! ## Decoding and encoding undo each other -/

theorem decode_encodeStimulus (i : Instr) : decode (encodeStimulus i) = i := by
  cases i with
  | dtime h m t =>
    obtain ⟨hh, hm, ht⟩ := fields_timeWord h m t
    simp only [encodeStimulus, decode_time, hh, hm, ht]
  | ddate o m d =>
    obtain ⟨ho, hm, hd⟩ := fields_dateWord o m d
    simp only [encodeStimulus, decode_date, ho, hm, hd]

theorem encodeStimulus_decode (st : Stimulus) : encodeStimulus (decode st) = st := by
  obtain ⟨u, w⟩ := st
  cases u with
  | dosTimeDecoder => rw [decode_time, encodeStimulus, timeWord_fields]
  | dosDateDecoder => rw [decode_date, encodeStimulus, dateWord_fields]

/-! ## Frames with bytes after them -/

/-- A frame is read by its unit byte and its assembled word; the bytes after it stay. -/
theorem decodeBytes_cons (b0 b1 u : Byte) (rest : List Byte) :
    decodeBytes (b0 :: b1 :: u :: rest) =
      match unitOfByte u with
      | some name => .ok (decode ⟨name, assembleWord b0 b1⟩, rest)
      | none => .error .noSuchUnit := by
  rw [decodeBytes, stimulusOfBytes_cons]
  cases unitOfByte u <;> rfl

/-- The frame of a stimulus line is taken off the bytes, and the others are left. -/
theorem decodeBytes_frame_append (st : Stimulus) (rest : List Byte) :
    decodeBytes (lowByte st.word :: highByte st.word :: unitByte st.unit :: rest) = .ok (decode st, rest) := by
  rw [decodeBytes_cons, unitOfByte_unitByte, assembleWord_lowByte_highByte]

theorem decodeBytes_encode_append (i : Instr) (rest : List Byte) : decodeBytes (encode i ++ rest) = .ok (i, rest) :=
  (decodeBytes_frame_append (encodeStimulus i) rest).trans (by rw [decode_encodeStimulus])

/-- Fewer than three bytes are no frame. -/
theorem decodeBytes_of_length_lt {bytes : List Byte} (h : bytes.length < 3) : decodeBytes bytes = .error .truncated := by
  match bytes, h with
  | [], _ => rfl
  | [_], _ => rfl
  | [_, _], _ => rfl

/-- Three bytes or more are well formed when the third names a unit. -/
theorem frameWellFormed_cons (b0 b1 u : Byte) (rest : List Byte) :
    frameWellFormed (b0 :: b1 :: u :: rest) = true ↔ u = 0#8 ∨ u = 1#8 := by
  simp [frameWellFormed, frameLongEnough, frameNamesUnit]

/-- Fewer than three bytes are not well formed. -/
theorem frameWellFormed_of_length_lt {bytes : List Byte} (h : bytes.length < 3) : frameWellFormed bytes = false := by
  simp [frameWellFormed, frameLongEnough, h]

/-- The frame reader with the two unit bytes named. -/
theorem decodeBytes_cons_eq_ite (b0 b1 u : Byte) (rest : List Byte) :
    decodeBytes (b0 :: b1 :: u :: rest) =
      if u = 0#8 then .ok (decode ⟨.dosTimeDecoder, assembleWord b0 b1⟩, rest)
      else if u = 1#8 then .ok (decode ⟨.dosDateDecoder, assembleWord b0 b1⟩, rest)
      else .error .noSuchUnit := by
  rw [decodeBytes_cons, unitOfByte]
  split_ifs <;> rfl

/-- The decoder accepts exactly the well-formed frames. -/
theorem decodeBytes_ok_iff (bytes : List Byte) : (∃ r, decodeBytes bytes = .ok r) ↔ frameWellFormed bytes = true := by
  have hshort (h : bytes.length < 3) : (∃ r, decodeBytes bytes = .ok r) ↔ frameWellFormed bytes = true := by
    simp [decodeBytes_of_length_lt h, frameWellFormed_of_length_lt h]
  match bytes with
  | [] | [_] | [_, _] => exact hshort (by simp)
  | b0 :: b1 :: u :: rest =>
    rw [frameWellFormed_cons, decodeBytes_cons_eq_ite]
    by_cases h0 : u = 0#8
    · simp [h0]
    by_cases h1 : u = 1#8
    · simp [h1]
    · simp [h0, h1]

/-- A table word that reads as an instruction stands for a stimulus line of that instruction (log entry 2). -/
theorem exists_tableStimulus_of_decodeTableWord {nbits w : Nat} {i : Instr} (h : decodeTableWord nbits w = some i) :
    ∃ st, tableStimulus nbits w = some st ∧ decode st = i := by
  rwa [decodeTableWord_eq, Option.map_eq_some_iff] at h

end Sys2Proof

namespace Sys2Proof.Machine

/-- Bits that stand for a stimulus line are presented as that line. -/
theorem withFetchWord_eq_present {nbits w : Nat} {st : Stimulus} (h : tableStimulus nbits w = some st) (s : State) :
    s.withFetchWord nbits w = s.present st := by
  rw [State.withFetchWord, h]

/-- A presented line's instruction is the whole of the next step: the other unit is settled by the presenting. -/
theorem step_present_eq_exec (s : State) (st : Stimulus) : step (s.present st) = exec (decode st) (s.present st) := by
  have hother : (s.present st).settledOn (otherUnit st.unit) = true :=
    settledOn_of_settled (settle_settled (s.driveInput st)) _
  have hexec := exec_decode_inputOf hother
  rw [present_inputOf] at hexec
  rw [step_eq, hexec]

/-! ## The statements -/

/-- Settles O1: the fields are read back from the word they make, and the word from its frame. -/
theorem decodeRecoversEncodedInstruction : Obligations.DecodeRecoversEncodedInstruction := fun i rest _ =>
  ⟨decode_encodeStimulus i, decodeBytes_encode_append i rest⟩

/-- Settles O2: the fields cover the word, and the unit is that of the operation. -/
theorem encodeRecoversDecodedWord : Obligations.EncodeRecoversDecodedWord := fun st =>
  ⟨encodeStimulus_decode st, decodeBytes_frame st⟩

/-- Settles O10: a presented table word is a presented stimulus line, whose own instruction settles the state. -/
theorem presentedTableWordRunsNext : Obligations.PresentedTableWordRunsNext := by
  intro s nbits w i hi
  obtain ⟨st, hst, rfl⟩ := exists_tableStimulus_of_decodeTableWord hi
  rw [withFetchWord_eq_present hst]
  exact ⟨st, rfl, rfl, fetch_present s st, step_present_eq_exec s st, present_inputOf_otherUnit s st⟩

/-- Settles O3: each worked word is the TIMEWORD or DATEWORD of the fields listed for it, which decode back; the two
table words are evaluated. -/
theorem specWordsDecodeToListedFields : Obligations.SpecWordsDecodeToListedFields :=
  ⟨decode_encodeStimulus (.dtime 23#5 59#6 29#5), decode_encodeStimulus (.ddate 95#7 11#4 29#5),
    decode_encodeStimulus (.dtime 8#5 59#6 29#5), decode_encodeStimulus (.ddate 4#7 2#4 29#5), by decide, by decide⟩

/-- Settles O4: the frame reader's answer by the number of bytes and by the unit byte. -/
theorem framesAreReadOrRejectedByName : Obligations.FramesAreReadOrRejectedByName :=
  ⟨fun _ => decodeBytes_of_length_lt, decodeBytes_cons_eq_ite, decodeBytes_ok_iff⟩

/-- Settles O6: a word's operands are its fields, and its operation is its unit's. -/
theorem unitAloneSelectsOperation : Obligations.UnitAloneSelectsOperation := fun w =>
  ⟨⟨_, _, _, decode_time w⟩, ⟨_, _, _, decode_date w⟩⟩

end Sys2Proof.Machine

/-! # The operands as shifts and masks, and the words without a value

Rules about the fields as the source's shifts and masks and about the words that give no value, and the statements that
follow from them: the operands on the ports (O7, O8) and the lists of the invalid words (O19, O24). -/

namespace Sys2Proof

/-! ## The fields as shifts and masks -/

/-- A slice of a word is a shift and a mask of its number. -/
theorem extractLsb'_toNat_eq_shift_and_mask {n : Nat} (w : BitVec n) (start len : Nat) :
    (w.extractLsb' start len).toNat = (w.toNat >>> start) &&& (2 ^ len - 1) := by
  rw [BitVec.extractLsb'_toNat, Nat.and_two_pow_sub_one_eq_mod]

/-- R44: the time fields are the source's shifts and masks. -/
theorem hoursField_eq_shift_and_mask (w : Word) : (hoursField w).toNat = (w.toNat >>> 11) &&& 0x1F :=
  extractLsb'_toNat_eq_shift_and_mask w 11 5

theorem minutesField_eq_shift_and_mask (w : Word) : (minutesField w).toNat = (w.toNat >>> 5) &&& 0x3F :=
  extractLsb'_toNat_eq_shift_and_mask w 5 6

theorem twoSecField_eq_mask (w : Word) : (twoSecField w).toNat = w.toNat &&& 0x1F :=
  extractLsb'_toNat_eq_shift_and_mask w 0 5

/-- R45: the date fields are the source's shifts and masks. -/
theorem yearOffsetField_eq_shift_and_mask (w : Word) : (yearOffsetField w).toNat = (w.toNat >>> 9) &&& 0x7F :=
  extractLsb'_toNat_eq_shift_and_mask w 9 7

theorem monthField_eq_shift_and_mask (w : Word) : (monthField w).toNat = (w.toNat >>> 5) &&& 0x0F :=
  extractLsb'_toNat_eq_shift_and_mask w 5 4

theorem dayField_eq_mask (w : Word) : (dayField w).toNat = w.toNat &&& 0x1F :=
  extractLsb'_toNat_eq_shift_and_mask w 0 5

end Sys2Proof

namespace Sys2Proof.Machine

/-! ## Operands on the ports -/

/-- R44: twice the count is the count with a zero bit below it. -/
theorem secondsOf_eq_append_zero (t : BitVec 5) : secondsOf t = (t ++ 0#1).toNat := by
  rw [append_toNat_eq_mul_add]
  rfl

/-- A field's number on an 8-bit port is the field extended with zeros (R9). -/
theorem zext8_toNat_eq_setWidth {n : Nat} (x : BitVec n) : zext8 x.toNat = x.setWidth 8 := by
  rw [zext8, BitVec.ofNat_toNat]

theorem zext16_toNat_eq_setWidth {n : Nat} (x : BitVec n) : zext16 x.toNat = x.setWidth 16 := by
  rw [zext16, BitVec.ofNat_toNat]

/-- R45: the year on its port is the extended offset plus 1980, without wrap. -/
theorem zext16_yearOf (o : BitVec 7) : zext16 (yearOf o) = o.setWidth 16 + 1980#16 := by
  rw [yearOf_eq, Nat.add_comm, zext16, BitVec.ofNat_add, BitVec.ofNat_toNat]

/-- A valid time on settled ports is the extended operands (R44, R60). -/
theorem settle_timePorts_of_valid {s : State} (h : (settle s).timeValid = 1#1) :
    (settle s).hour = (hoursField s.dosTime).setWidth 8 ∧ (settle s).minute = (minutesField s.dosTime).setWidth 8 ∧
      (settle s).second = (twoSecField s.dosTime ++ 0#1).setWidth 8 := by
  rw [settle_timeValid, decodeTime] at h
  rw [settle_hour, settle_minute, settle_second, decodeTime]
  obtain ⟨-, -, -, hvalue⟩ | ⟨-, hnone⟩ :=
    timeResult_cases (hoursField s.dosTime) (minutesField s.dosTime) (twoSecField s.dosTime)
  · rw [hvalue, ← zext8_toNat_eq_setWidth, ← zext8_toNat_eq_setWidth, ← zext8_toNat_eq_setWidth,
      ← secondsOf_eq_append_zero]
    exact ⟨rfl, rfl, rfl⟩
  · rw [hnone] at h
    exact absurd h (by decide)

/-- A valid date on settled ports is the extended operands, the year moved by 1980 (R45, R72). -/
theorem settle_datePorts_of_valid {s : State} (h : (settle s).dateValid = 1#1) :
    (settle s).year = (yearOffsetField s.dosDate).setWidth 16 + 1980#16 ∧
      (settle s).month = (monthField s.dosDate).setWidth 16 ∧ (settle s).day = (dayField s.dosDate).setWidth 16 := by
  rw [settle_dateValid, decodeDate] at h
  rw [settle_year, settle_month, settle_day, decodeDate]
  obtain ⟨-, -, -, -, hvalue⟩ | ⟨-, hnone⟩ :=
    dateResult_cases (yearOffsetField s.dosDate) (monthField s.dosDate) (dayField s.dosDate)
  · rw [hvalue, ← zext16_yearOf, ← zext16_toNat_eq_setWidth, ← zext16_toNat_eq_setWidth]
    exact ⟨rfl, rfl, rfl⟩
  · rw [hnone] at h
    exact absurd h (by decide)

/-! ## Words without a value -/

/-- R47: a time word has no value exactly when a field is above its limit. -/
theorem decodeTime_eq_none_iff (w : Word) :
    decodeTime w = none ↔ 23 < (w.toNat >>> 11) &&& 0x1F ∨ 59 < (w.toNat >>> 5) &&& 0x3F ∨ 29 < w.toNat &&& 0x1F := by
  rw [decodeTime, timeResult_eq_none_iff, hoursField_eq_shift_and_mask, minutesField_eq_shift_and_mask,
    twoSecField_eq_mask]

/-- R47's lists are the values of a field above its limit. -/
theorem mem_range'_above_limit_iff {n limit k : Nat} (h : n < limit + 1 + k) :
    n ∈ List.range' (limit + 1) k ↔ limit < n := by
  rw [List.mem_range'_1]
  omega

/-- R67: the outcome of the date unit is "no value" exactly when no month has that number and that day. -/
theorem dateResult_eq_none_iff {o : BitVec 7} {mr : BitVec 4} {d : BitVec 5} :
    dateResult o mr d = none ↔
      ∀ m : Month, Month.ofNumber? mr.toNat = some m → d.toNat = 0 ∨ monthLength (yearOf o) m < d.toNat := by
  obtain ⟨m, hm, hday, hlength, hvalue⟩ | ⟨hno, hnone⟩ := dateResult_cases o mr d
  · simp only [hvalue, hm, Option.some.injEq, reduceCtorEq, false_iff]
    intro hall
    have := hall m rfl
    omega
  · simpa only [hnone, true_iff, Nat.lt_one_iff] using hno

/-- R48 by the month field: the days a field value of 0 to 15 leaves without a date, with the lengths of R76. -/
theorem noDay_iff_listed {y n d : Nat} (hn : n < 16) :
    (∀ m : Month, Month.ofNumber? n = some m → d = 0 ∨ monthLength y m < d) ↔
      n ∈ [0, 13, 14, 15] ∨ d = 0 ∨
      (n = 2 ∧ d > if y % 4 = 0 ∧ (y % 100 ≠ 0 ∨ y % 400 = 0) then 29 else 28) ∨
      (n ∈ [4, 6, 9, 11] ∧ d > 30) ∨ (n ∈ [1, 3, 5, 7, 8, 10, 12] ∧ d > 31) := by
  cases hm : Month.ofNumber? n with
  | none =>
    have hout : n ∈ [0, 13, 14, 15] := by
      have := Month.ofNumber_none.mp hm
      simp only [List.mem_cons, List.not_mem_nil, or_false]
      omega
    simp [hout]
  | some m =>
    cases Month.ofNumber_some hm
    cases m <;> simp [Month.number, monthLength, isLeap]

/-- R48 with R76: a date word has no value exactly when its fields are in the list; the zero word is in it by its month
and its day (R68). -/
theorem decodeDate_eq_none_iff (w : Word) :
    decodeDate w = none ↔
      let month := (w.toNat >>> 5) &&& 0x0F
      let day := w.toNat &&& 0x1F
      let year := 1980 + ((w.toNat >>> 9) &&& 0x7F)
      w = 0x0000#16 ∨ month ∈ [0, 13, 14, 15] ∨ day = 0 ∨
      (month = 2 ∧ day > if year % 4 = 0 ∧ (year % 100 ≠ 0 ∨ year % 400 = 0) then 29 else 28) ∨
      (month ∈ [4, 6, 9, 11] ∧ day > 30) ∨ (month ∈ [1, 3, 5, 7, 8, 10, 12] ∧ day > 31) := by
  have hzero : w = 0x0000#16 → decodeDate w = none := by
    rintro rfl
    rfl
  rw [decodeDate, dateResult_eq_none_iff, noDay_iff_listed (monthField w).isLt, yearOf_eq,
    yearOffsetField_eq_shift_and_mask, monthField_eq_shift_and_mask, dayField_eq_mask] at hzero ⊢
  exact (or_iff_right_of_imp hzero).symm

/-- R69: a year with any offset has a first of January. -/
theorem decodeDate_firstOfJanuary_isSome (o : BitVec 7) : (decodeDate (dateWord o 1#4 1#5)).isSome = true := by
  obtain ⟨-, hm, hd⟩ := fields_dateWord o 1#4 1#5
  rw [Option.isSome_iff_ne_none, decodeDate, hm, hd, Ne, dateResult_eq_none_iff]
  intro hall
  have hlength := hall .january rfl
  simp [monthLength] at hlength

/-- Where the date unit is settled, settling moves nothing but the time unit's outputs. -/
theorem settle_eq_of_dateSettled {s : State} (h : s.dateSettled = true) :
    settle s = { s with hour := (settle s).hour, minute := (settle s).minute, second := (settle s).second,
                        timeValid := (settle s).timeValid } := by
  rw [settle_eq_driveTime h]
  rfl

/-- Where the time unit is settled, settling moves nothing but the date unit's outputs. -/
theorem settle_eq_of_timeSettled {s : State} (h : s.timeSettled = true) :
    settle s = { s with year := (settle s).year, month := (settle s).month, day := (settle s).day,
                        dateValid := (settle s).dateValid } := by
  rw [settle_eq_driveDate h]
  rfl

/-! ## The statements -/

/-- Settles O7: the operands are the word's fields, and a step leaves the time of those fields on the ports. -/
theorem timeOperandsFollowFieldLayout : Obligations.TimeOperandsFollowFieldLayout := fun s =>
  ⟨_, _, _, settle s, decode_time s.dosTime, hoursField_eq_shift_and_mask _, minutesField_eq_shift_and_mask _,
    twoSecField_eq_mask _, secondsOf_eq _, secondsOf_eq_append_zero _, step_eq s, settle_timePorts_of_valid⟩

/-- Settles O8: the operands are the word's fields, and a step leaves the date of those fields on the ports. -/
theorem dateOperandsFollowFieldLayout : Obligations.DateOperandsFollowFieldLayout := fun s =>
  ⟨_, _, _, settle s, decode_date s.dosDate, yearOffsetField_eq_shift_and_mask _, monthField_eq_shift_and_mask _,
    dayField_eq_mask _, yearOf_eq _, step_eq s, settle_datePorts_of_valid⟩

/-- Settles O19: a step shows the word's outcome, which is "no value" exactly for a field above its limit; the frame is
that of driving the time unit. -/
theorem invalidTimeWordsAreExactlyOutOfRangeFields : Obligations.InvalidTimeWordsAreExactlyOutOfRangeFields := by
  refine ⟨fun s => ⟨settle s, step_eq s, ?listed, rfl, rfl, rfl, settle_dateView s, fun hnone hdate => ?frame⟩,
    fun w h => (decodeTime_eq_none_iff w).mpr (.inl h), fun w h => (decodeTime_eq_none_iff w).mpr (.inr (.inl h)),
    fun w h => (decodeTime_eq_none_iff w).mpr (.inr (.inr h)), ?_⟩
  case listed =>
    have hhours := hoursField_eq_shift_and_mask s.dosTime ▸ (hoursField s.dosTime).isLt
    have hminutes := minutesField_eq_shift_and_mask s.dosTime ▸ (minutesField s.dosTime).isLt
    have hcount := twoSecField_eq_mask s.dosTime ▸ (twoSecField s.dosTime).isLt
    rw [settle_timeView, decodeTime_eq_none_iff]
    exact (or_congr (mem_range'_above_limit_iff (limit := 23) (k := 8) hhours) (or_congr
      (mem_range'_above_limit_iff (limit := 59) (k := 4) hminutes)
      (mem_range'_above_limit_iff (limit := 29) (k := 2) hcount))).symm
  case frame =>
    rw [← (timeView_eq_none _).mp hnone]
    exact settle_eq_of_dateSettled hdate
  · decide

/-- Settles O24: a step shows the word's outcome, which is "no value" exactly for the listed fields; the frame is that
of driving the date unit, and every year has its first day. -/
theorem invalidDateWordsAreExactlyThoseListed : Obligations.InvalidDateWordsAreExactlyThoseListed := by
  refine ⟨fun s => ⟨settle s, step_eq s, ?listed, rfl, rfl, rfl, settle_timeView s, fun hnone htime => ?frame⟩,
    fun o => ⟨dateWord o 1#4 1#5, (fields_dateWord o 1#4 1#5).1, decodeDate_firstOfJanuary_isSome o⟩⟩
  case listed => rw [settle_dateView, decodeDate_eq_none_iff]
  case frame =>
    rw [← (dateView_eq_none _).mp hnone]
    exact settle_eq_of_timeSettled htime

end Sys2Proof.Machine

/-! # The whole-space counts

Rules about counting the numbers below a product by their quotient and remainder, and the counts of R50 that follow from
them: time words as a product of the three fields' counts (O34), date words as a sum over the years (O35). -/

namespace Sys2Proof.Machine

/-! ## Counting below a product -/

/-- The numbers below `a * b` are `a` blocks of `b`. -/
theorem countP_range_mul (p : Nat → Bool) (a b : Nat) :
    (List.range (a * b)).countP p = ∑ i ∈ Finset.range a, (List.range b).countP fun j => p (i * b + j) := by
  induction a with
  | zero => simp
  | succ a ih =>
    rw [Nat.succ_mul, List.range_add, List.countP_append, List.countP_map, ih, Finset.sum_range_succ]
    rfl

/-- A count is a sum of ones. -/
theorem countP_range_eq_sum (p : Nat → Bool) (a : Nat) :
    (List.range a).countP p = ∑ i ∈ Finset.range a, if p i then 1 else 0 := by
  simpa [List.range_succ] using countP_range_mul p a 1

/-- Numbers that are judged by quotient and remainder apart are counted by a product. -/
theorem countP_range_mul_and (p q : Nat → Bool) (a b : Nat) :
    (List.range (a * b)).countP (fun n => p (n / b) && q (n % b)) = (List.range a).countP p * (List.range b).countP q := by
  rw [countP_range_mul, countP_range_eq_sum p, Finset.sum_mul]
  refine Finset.sum_congr rfl fun i _ => ?_
  have hblock : (List.range b).countP (fun j => p ((i * b + j) / b) && q ((i * b + j) % b)) =
      (List.range b).countP fun j => p i && q j := by
    refine List.countP_congr fun j hj => ?_
    have hjb := List.mem_range.mp hj
    have hdiv : (i * b + j) / b = i := by
      rw [Nat.mul_comm, Nat.mul_add_div (by omega), Nat.div_eq_of_lt hjb, Nat.add_zero]
    rw [hdiv, Nat.mul_add_mod_of_lt hjb]
  rw [hblock]
  cases p i <;> simp

/-- The days 1 to `length` are counted among the values of a field that holds them all. -/
theorem countP_range_days {length n : Nat} (h : length < n) :
    (List.range n).countP (fun d => decide (1 ≤ d ∧ d ≤ length)) = length := by
  have hdays : (Finset.range n).filter (fun d => 1 ≤ d ∧ d ≤ length) = Finset.Icc 1 length := by
    ext d
    simp only [Finset.mem_filter, Finset.mem_range, Finset.mem_Icc]
    omega
  calc (List.range n).countP (fun d => decide (1 ≤ d ∧ d ≤ length))
      = ((Finset.range n).filter (fun d => 1 ≤ d ∧ d ≤ length)).card := Nat.count_eq_card_filter_range _ n
    _ = length := by rw [hdays, Nat.card_Icc, Nat.add_sub_cancel]

/-- The elements without a value are all the others. -/
theorem countP_isNone_of_countP_isSome {α β : Type} {f : α → Option β} {l : List α} {k n : Nat}
    (hsome : l.countP (fun x => (f x).isSome) = k) (hlength : l.length = k + n) :
    l.countP (fun x => (f x).isNone) = n := by
  rw [List.length_eq_countP_add_countP (fun x => (f x).isSome), hsome] at hlength
  simpa only [Bool.not_eq_true, Option.isSome_eq_false_iff, Bool.decide_eq_true] using Nat.add_left_cancel hlength

/-! ## Time words -/

/-- R47 on the numbers of the words: a valid time is judged field by field. -/
theorem decodeTime_ofNat_isSome_iff {n : Nat} (h : n < 65536) :
    (decodeTime (BitVec.ofNat 16 n)).isSome = true ↔
      n / (64 * 32) ≤ 23 ∧ n % (64 * 32) / 32 ≤ 59 ∧ n % (64 * 32) % 32 ≤ 29 := by
  rw [Option.isSome_iff_ne_none, Ne, decodeTime, timeResult_eq_none_iff, hoursField_toNat, minutesField_toNat,
    twoSecField_toNat, BitVec.toNat_ofNat, Nat.mod_eq_of_lt h]
  omega

/-- R50: the valid time words are counted by the product of the valid values of each field. -/
theorem countP_decodeTime_isSome :
    (List.range 65536).countP (fun n => (decodeTime (BitVec.ofNat 16 n)).isSome) = 24 * 60 * 30 := by
  have hhours : (List.range 32).countP (fun h => decide (h ≤ 23)) = 24 := by decide
  have hminutes : (List.range 64).countP (fun m => decide (m ≤ 59)) = 60 := by decide
  have hcounts : (List.range 32).countP (fun c => decide (c ≤ 29)) = 30 := by decide
  have hsize : 65536 = 32 * (64 * 32) := by norm_num
  calc (List.range 65536).countP (fun n => (decodeTime (BitVec.ofNat 16 n)).isSome)
      = (List.range (32 * (64 * 32))).countP (fun n => (decodeTime (BitVec.ofNat 16 n)).isSome) := by rw [hsize]
    _ = (List.range (32 * (64 * 32))).countP (fun n => decide (n / (64 * 32) ≤ 23) &&
          (decide (n % (64 * 32) / 32 ≤ 59) && decide (n % (64 * 32) % 32 ≤ 29))) :=
        List.countP_congr fun n hn => by
          have hlt : n < 65536 := hsize ▸ List.mem_range.mp hn
          simp only [decodeTime_ofNat_isSome_iff hlt, Bool.and_eq_true, decide_eq_true_eq]
    _ = (List.range 32).countP (fun h => decide (h ≤ 23)) *
          ((List.range 64).countP (fun m => decide (m ≤ 59)) * (List.range 32).countP (fun c => decide (c ≤ 29))) := by
        rw [← countP_range_mul_and (fun m => decide (m ≤ 59)) (fun c => decide (c ≤ 29)),
          ← countP_range_mul_and (fun h => decide (h ≤ 23))
            (fun r => decide (r / 32 ≤ 59) && decide (r % 32 ≤ 29))]
    _ = 24 * 60 * 30 := by rw [hhours, hminutes, hcounts]

/-! ## Date words -/

/-- The valid days under a month field, in a year: the month's length (R76), or none where the field names no month. -/
def daysUnderMonthField (year monthNumber : Nat) : Nat := (Month.ofNumber? monthNumber).elim 0 (monthLength year)

/-- R48 on the numbers of the words: a valid date is a day of a named month. -/
theorem decodeDate_ofNat_isSome_iff {o mo d : Nat} (ho : o < 128) (hmo : mo < 16) (hd : d < 32) :
    (decodeDate (BitVec.ofNat 16 (o * (16 * 32) + (mo * 32 + d)))).isSome = true ↔
      1 ≤ d ∧ d ≤ daysUnderMonthField (1980 + o) mo := by
  have hword : BitVec.ofNat 16 (o * (16 * 32) + (mo * 32 + d)) =
      dateWord (BitVec.ofNat 7 o) (BitVec.ofNat 4 mo) (BitVec.ofNat 5 d) := by
    apply BitVec.eq_of_toNat_eq
    simp only [dateWord_toNat, BitVec.toNat_ofNat]
    omega
  obtain ⟨hof, hmf, hdf⟩ := fields_dateWord (BitVec.ofNat 7 o) (BitVec.ofNat 4 mo) (BitVec.ofNat 5 d)
  rw [Option.isSome_iff_ne_none, hword, decodeDate, hof, hmf, hdf, Ne, dateResult_eq_none_iff, yearOf_eq,
    BitVec.toNat_ofNat, BitVec.toNat_ofNat, BitVec.toNat_ofNat, Nat.mod_eq_of_lt ho, Nat.mod_eq_of_lt hmo,
    Nat.mod_eq_of_lt hd, daysUnderMonthField]
  cases Month.ofNumber? mo with
  | none =>
    simp only [reduceCtorEq, false_implies, implies_true, not_true_eq_false, Option.elim, false_iff]
    omega
  | some m =>
    simp only [Option.some.injEq, forall_eq', Option.elim]
    omega

/-- A year has 365 valid days, and one more in a leap year (R74, R76). -/
theorem sum_daysUnderMonthField (y : Nat) :
    ∑ mo ∈ Finset.range 16, daysUnderMonthField y mo = 365 + if isLeap y then 1 else 0 := by
  simp only [daysUnderMonthField, Finset.sum_range_succ, Finset.sum_range_zero, Month.ofNumber?, Option.elim,
    monthLength]
  split <;> rfl

theorem daysUnderMonthField_lt (y mo : Nat) : daysUnderMonthField y mo < 32 := by
  rw [daysUnderMonthField]
  cases Month.ofNumber? mo with
  | none => exact Nat.zero_lt_succ 31
  | some m => exact Nat.lt_succ_of_le (monthLength_range y m).2

/-- R75: 31 of the 128 years are leap. -/
theorem countP_isLeap : (List.range 128).countP (fun o => isLeap (1980 + o)) = 31 := by decide

/-- R50: the valid date words are counted year by year. -/
theorem countP_decodeDate_isSome :
    (List.range 65536).countP (fun n => (decodeDate (BitVec.ofNat 16 n)).isSome) = 128 * 365 + 31 := by
  have hmonth {o mo : Nat} (ho : o < 128) (hmo : mo < 16) :
      (List.range 32).countP (fun d => (decodeDate (BitVec.ofNat 16 (o * (16 * 32) + (mo * 32 + d)))).isSome) =
        daysUnderMonthField (1980 + o) mo := by
    rw [← countP_range_days (daysUnderMonthField_lt (1980 + o) mo)]
    refine List.countP_congr fun d hd => ?_
    rw [decodeDate_ofNat_isSome_iff ho hmo (List.mem_range.mp hd), decide_eq_true_iff]
  have hsize : 65536 = 128 * (16 * 32) := by norm_num
  calc (List.range 65536).countP (fun n => (decodeDate (BitVec.ofNat 16 n)).isSome)
      = ∑ o ∈ Finset.range 128, ∑ mo ∈ Finset.range 16, daysUnderMonthField (1980 + o) mo := by
        rw [hsize, countP_range_mul]
        refine Finset.sum_congr rfl fun o ho => ?_
        rw [countP_range_mul]
        exact Finset.sum_congr rfl fun mo hmo => hmonth (Finset.mem_range.mp ho) (Finset.mem_range.mp hmo)
    _ = ∑ o ∈ Finset.range 128, (365 + if isLeap (1980 + o) then 1 else 0) :=
        Finset.sum_congr rfl fun o _ => sum_daysUnderMonthField (1980 + o)
    _ = 128 * 365 + 31 := by
        rw [Finset.sum_add_distrib, ← countP_range_eq_sum fun o => isLeap (1980 + o), countP_isLeap, Finset.sum_const,
          Finset.card_range, smul_eq_mul]

/-! ## The statements -/

/-- Settles O34: the product of the fields' counts, and the rest of the 65536 words. -/
theorem timeWordsCounted : Obligations.TimeWordsCounted :=
  ⟨countP_decodeTime_isSome,
    countP_isNone_of_countP_isSome countP_decodeTime_isSome (List.length_range.trans (by norm_num))⟩

/-- Settles O35: the sum of the years' days, and the rest of the 65536 words. -/
theorem dateWordsCounted : Obligations.DateWordsCounted :=
  ⟨countP_decodeDate_isSome,
    countP_isNone_of_countP_isSome countP_decodeDate_isSome (List.length_range.trans (by norm_num)), countP_isLeap⟩

end Sys2Proof.Machine

/-! # The time unit's values and the words behind them

Rules about the time value that a word's fields give and the word that a time value gives back, and about what settled
ports tell of the word, and the statements that follow from them: the whole of DTIME (O15), its values (O20, O21), the
zero word (O22, O23) and the words and inputs that no output tells apart (O37, O44). -/

namespace Sys2Proof.Machine

/-! ## From the fields to the value -/

/-- Twice a count on an 8-bit port is the extended count times 2, without wrap (R44). -/
theorem zext8_toNat_mul_two (t : BitVec 5) : zext8 (t.toNat * 2) = t.setWidth 8 * 2#8 := by
  rw [zext8, BitVec.ofNat_mul, BitVec.ofNat_toNat]

/-- R60: fields within the limits are a time. -/
theorem timeResult_of_inRange {h : BitVec 5} {m : BitVec 6} {t : BitVec 5} (hh : h.toNat ≤ 23) (hm : m.toNat ≤ 59)
    (ht : t.toNat ≤ 29) : timeResult h m t = some ⟨h.toNat, m.toNat, t.toNat * 2⟩ := by
  obtain ⟨-, -, -, hvalue⟩ | ⟨hlimit, -⟩ := timeResult_cases h m t
  · exact hvalue
  · omega

/-- The time unit judges a word by the fields it was made of (R42, R52). -/
theorem decodeTime_timeWord (h : BitVec 5) (m : BitVec 6) (t : BitVec 5) :
    decodeTime (timeWord h m t) = timeResult h m t :=
  decodeTime_of_decode (decode_encodeStimulus (.dtime h m t))

/-! ## From the value back to the word -/

/-- R63: a valid time is its word's fields. -/
theorem eq_fields_of_decodeTime_eq_some {w : Word} {v : TimeValue} (hv : decodeTime w = some v) :
    v = ⟨(hoursField w).toNat, (minutesField w).toNat, (twoSecField w).toNat * 2⟩ := by
  rw [decodeTime] at hv
  obtain ⟨-, -, -, hvalue⟩ | ⟨-, hnone⟩ := timeResult_cases (hoursField w) (minutesField w) (twoSecField w)
  · exact Option.some.inj (hv.symm.trans hvalue)
  · cases hnone.symm.trans hv

/-- R63: TIMEWORD recovers the word from its value. -/
theorem timeWord_of_decodeTime_eq_some {w : Word} {v : TimeValue} (hv : decodeTime w = some v) :
    timeWord (BitVec.ofNat 5 v.hour) (BitVec.ofNat 6 v.minute) (BitVec.ofNat 5 (v.second / 2)) = w := by
  simp only [eq_fields_of_decodeTime_eq_some hv, BitVec.ofNat_toNat, BitVec.setWidth_eq,
    Nat.mul_div_cancel _ Nat.two_pos, timeWord_fields]

/-- R63: words with one time value are one word. -/
theorem decodeTime_injective_of_eq_some {w w' : Word} {v : TimeValue} (hv : decodeTime w = some v)
    (hv' : decodeTime w' = some v) : w = w' :=
  (timeWord_of_decodeTime_eq_some hv).symm.trans (timeWord_of_decodeTime_eq_some hv')

/-- R61: the zero word is midnight. -/
theorem decodeTime_zero : decodeTime 0x0000#16 = some ⟨0, 0, 0⟩ := by decide

/-- R61 with R63: no other word is midnight. -/
theorem decodeTime_eq_midnight_iff (w : Word) : decodeTime w = some ⟨0, 0, 0⟩ ↔ w = 0x0000#16 :=
  ⟨fun h => decodeTime_injective_of_eq_some h decodeTime_zero, fun h => h ▸ decodeTime_zero⟩

/-! ## What settled ports tell of the word -/

/-- Under `time_valid` = 1 the data ports are the word's value (R13, R110). -/
theorem decodeTime_of_settle_timeValid {s : State} (h : (settle s).timeValid = 1#1) :
    decodeTime s.dosTime = some ⟨(settle s).hour.toNat, (settle s).minute.toNat, (settle s).second.toNat⟩ := by
  rw [← settle_timeView, State.timeView, underValid, if_pos h]

/-- Time ports in range under `time_valid` = 0 are all zero (decision D6). -/
theorem timePorts_eq_zero_of_timeInRange {s : State} (hs : s.timeInRange = true) (h : s.timeValid = 0#1) :
    s.hour = 0#8 ∧ s.minute = 0#8 ∧ s.second = 0#8 := by
  obtain ⟨hvalid, -⟩ | ⟨-, hzero⟩ := (timeInRange_iff s).mp hs
  · rw [h] at hvalid
    exact absurd hvalid (by decide)
  · exact hzero

/-- R64, R110: settled time data is all zero for the zero word and for the invalid words only. -/
theorem settle_timePorts_eq_zero_iff (s : State) :
    ((settle s).hour = 0#8 ∧ (settle s).minute = 0#8 ∧ (settle s).second = 0#8) ↔
      (s.dosTime = 0x0000#16 ∨ (settle s).timeValid = 0#1) := by
  rcases BitVec.eq_zero_or_eq_one (settle s).timeValid with hvalid | hvalid
  · simp [hvalid, timePorts_eq_zero_of_timeInRange (settle_timeInRange s) hvalid]
  · rw [← decodeTime_eq_midnight_iff, decodeTime_of_settle_timeValid hvalid]
    simp [hvalid, BitVec.toNat_eq]

/-- Date ports in range are all zero under `date_valid` = 0 only: a valid year is 1980 or later (R81). -/
theorem datePorts_eq_zero_iff_of_dateInRange {s : State} (hs : s.dateInRange = true) :
    (s.year = 0#16 ∧ s.month = 0#16 ∧ s.day = 0#16) ↔ s.dateValid = 0#1 := by
  obtain ⟨hvalid, hmin, -⟩ | ⟨hvalid, hzero⟩ := (dateInRange_iff s).mp hs
  · have hyear : s.year ≠ 0#16 := fun h => by simp [h] at hmin
    simp [hvalid, hyear]
  · exact iff_of_true hzero hvalid

/-- R61: under a zero time word, settled outputs are valid. -/
theorem settle_timeValid_of_zero {s : State} (h : s.dosTime = 0x0000#16) : (settle s).timeValid = 1#1 := by
  rw [settle_timeValid, h, decodeTime_zero]
  rfl

/-! ## What the outputs do not tell -/

/-- Time words of one outcome are presented to states that are equal but for the input port. -/
theorem present_time_congr {w w' : Word} (h : decodeTime w = decodeTime w') (s : State) :
    { s.present ⟨.dosTimeDecoder, w⟩ with dosTime := w' } = s.present ⟨.dosTimeDecoder, w'⟩ := by
  rw [present_time, present_time, settle, settle, h]
  rfl

/-- Date words of one outcome are presented to states that are equal but for the input port. -/
theorem present_date_congr {w w' : Word} (h : decodeDate w = decodeDate w') (s : State) :
    { s.present ⟨.dosDateDecoder, w⟩ with dosDate := w' } = s.present ⟨.dosDateDecoder, w'⟩ := by
  rw [present_date, present_date, settle, settle, h]
  rfl

/-- Settled time outputs are a function of the time word alone (R64). -/
theorem settle_timePorts_congr {s s' : State} (h : s.dosTime = s'.dosTime) :
    (settle s).hour = (settle s').hour ∧ (settle s).minute = (settle s').minute ∧
      (settle s).second = (settle s').second ∧ (settle s).timeValid = (settle s').timeValid := by
  simp only [settle_hour, settle_minute, settle_second, settle_timeValid, h, and_self]

/-- Settled date outputs are a function of the date word alone (R81). -/
theorem settle_datePorts_congr {s s' : State} (h : s.dosDate = s'.dosDate) :
    (settle s).year = (settle s').year ∧ (settle s).month = (settle s').month ∧
      (settle s).day = (settle s').day ∧ (settle s).dateValid = (settle s').dateValid := by
  simp only [settle_year, settle_month, settle_day, settle_dateValid, h, and_self]

/-! ## The statements -/

/-- Settles O15: DTIME drives the outcome of its fields, which is a time within the limits and "no value" outside. -/
theorem dtimeCompletesDrivingItsPorts : Obligations.DtimeCompletesDrivingItsPorts := by
  intro h m t s
  rw [exec_dtime]
  obtain ⟨hh, hm, ht, hvalue⟩ | ⟨hlimit, hnone⟩ := timeResult_cases h m t
  · rw [hvalue, driveTime_some, if_pos ⟨hh, hm, ht⟩, zext8_toNat_eq_setWidth, zext8_toNat_eq_setWidth,
      zext8_toNat_mul_two]
    rfl
  · rw [hnone, driveTime_none, if_neg (by omega)]
    rfl

/-- Settles O20: a step shows the outcome of the fields the word was made of, and its numbers fit the ports. -/
theorem inRangeTimeFieldsEmitTheirValue : Obligations.InRangeTimeFieldsEmitTheirValue := by
  intro s h m c hword hh hm hc
  have hvalue : decodeTime s.dosTime = some ⟨h.toNat, m.toNat, c.toNat * 2⟩ := by
    rw [hword, decodeTime_timeWord, timeResult_of_inRange hh hm hc]
  refine ⟨settle s, step_eq s, (settle_timeView s).trans hvalue, by omega, by omega, ?count, ?port⟩
  case count => rw [← secondsOf_eq_append_zero, secondsOf_eq]
  case port =>
    rw [settle_second, hvalue]
    exact zext8_toNat (n := c.toNat * 2) (by omega)

/-- Settles O21: the value is the fields, which TIMEWORD puts together again; a value that two words share is put
together to one word. -/
theorem validTimeIsTheWordsFields : Obligations.ValidTimeIsTheWordsFields := by
  refine ⟨fun w v hv => ?fields, fun w hh hm ht => ?converse, fun w w' hsome heq => ?injective⟩
  case fields =>
    obtain ⟨hhour, hminute, hsecond, heven⟩ := timeResult_some_legal hv
    have hfields := eq_fields_of_decodeTime_eq_some hv
    rw [hoursField_eq_shift_and_mask, minutesField_eq_shift_and_mask, twoSecField_eq_mask] at hfields
    exact ⟨congrArg TimeValue.hour hfields, congrArg TimeValue.minute hfields, congrArg TimeValue.second hfields,
      hhour, hminute, hsecond, heven, timeWord_of_decodeTime_eq_some hv⟩
  case converse =>
    rw [Option.isSome_iff_ne_none, Ne, decodeTime_eq_none_iff]
    omega
  case injective =>
    obtain ⟨v, hv⟩ := Option.isSome_iff_exists.mp hsome
    exact decodeTime_injective_of_eq_some hv (heq.symm.trans hv)

/-- Settles O23: under a valid bit the time data is the word's value, which is midnight for the zero word only, and a
date's year is never 0; without it all data is zero. -/
theorem onlyValidBitTellsMidnightFromNoValue : Obligations.OnlyValidBitTellsMidnightFromNoValue :=
  ⟨fun s => ⟨settle s, step_eq s, settle_timePorts_eq_zero_iff s, settle_timeValid_of_zero⟩,
    fun s => ⟨settle s, step_eq s, datePorts_eq_zero_iff_of_dateInRange (settle_dateInRange s)⟩⟩

/-- Settles O37: each word is answered by presenting it, and two invalid words have one outcome. -/
theorem invalidWordsAreIndistinguishable : Obligations.InvalidWordsAreIndistinguishable :=
  ⟨fun s _ _ hw hw' => ⟨_, _, evaluate_eq s _, evaluate_eq s _, present_time_congr (hw.trans hw'.symm) s⟩,
    fun s _ _ hw hw' => ⟨_, _, evaluate_eq s _, evaluate_eq s _, present_date_congr (hw.trans hw'.symm) s⟩⟩

/-- Settles O44: a step is `settle`, which computes a unit's outputs from that unit's word. -/
theorem outputsDependOnOwnInputOnly : Obligations.OutputsDependOnOwnInputOnly :=
  ⟨fun s s' h => ⟨settle s, settle s', step_eq s, step_eq s', settle_timePorts_congr h⟩,
    fun s s' h => ⟨settle s, settle s', step_eq s, step_eq s', settle_datePorts_congr h⟩⟩

/-- Settles O22: the presented zero word shows midnight on the time unit; on the date unit it is in the list of the
words without a value. -/
theorem zeroWordIsMidnightAndNoDate : Obligations.ZeroWordIsMidnightAndNoDate := by
  refine fun s => ⟨⟨_, evaluate_eq s _, settle_timeValid_of_zero rfl, ?midnight⟩, ?noDate⟩
  case midnight => rw [present_time, settle_timeView, decodeTime_zero]
  case noDate =>
    have hview : (s.present ⟨.dosDateDecoder, 0x0000#16⟩).dateView = none := by
      rw [present_date, settle_dateView, decodeDate_eq_none_iff]
      exact .inl rfl
    exact ⟨_, evaluate_eq s _, (dateView_eq_none _).mp hview, hview⟩

end Sys2Proof.Machine

/-! # The date unit's values and the calendar behind them

Rules about the leap rule and the month lengths by number, about the date value that a word's fields give and the word
that a date value gives back, and the statements that follow from them: the whole of DDATE (O16), its years and days
(O25, O26, O27), the leap rule and the lengths (O28, O29, O30), the impossible days (O31), the zero test (O32) and the
leap-day words (O33). -/

namespace Sys2Proof.Machine

/-! ## The calendar by numbers -/

/-- R74 in remainders. -/
theorem isLeap_iff (y : Nat) : isLeap y = true ↔ y % 4 = 0 ∧ (y % 100 ≠ 0 ∨ y % 400 = 0) := by
  simp [isLeap]

/-- R67's month lengths by month number, for a given length of February. -/
def lengthByNumber (february n : Nat) : Nat :=
  if n = 2 then february else if n = 4 ∨ n = 6 ∨ n = 9 ∨ n = 11 then 30 else 31

/-- R76's table, month by month, is R67's lengths by number. -/
theorem monthLength_eq_lengthByNumber (y : Nat) (m : Month) :
    monthLength y m = lengthByNumber (monthLength y .february) m.number := by
  cases m <;> rfl

/-- R76's February under R74's rule. -/
theorem monthLength_february (y : Nat) :
    monthLength y .february = if y % 4 = 0 ∧ (y % 100 ≠ 0 ∨ y % 400 = 0) then 29 else 28 := by
  simp only [← isLeap_iff]
  rfl

/-- R73: the year enters the length of February only. -/
theorem monthLength_eq_of_ne_february {m : Month} (hm : m ≠ .february) (y y' : Nat) :
    monthLength y m = monthLength y' m := by
  cases m with
  | february => exact absurd rfl hm
  | _ => rfl

/-- R77: the days that fit the day field but not the month. -/
theorem monthLength_lt_iff_impossible {y d : Nat} (m : Month) (hd : d < 32) :
    monthLength y m < d ↔
      (m.number, d) ∈ [(2, 30), (2, 31), (4, 31), (6, 31), (9, 31), (11, 31)] ∨
      ((m.number, d) = (2, 29) ∧ isLeap y = false) := by
  simp only [List.mem_cons, List.not_mem_nil, or_false, Prod.mk.injEq]
  cases m with
  | february =>
    cases hleap : isLeap y with
    | true => simp [Month.number, monthLength, hleap]; omega
    | false => simp [Month.number, monthLength, hleap]; omega
  | _ => simp [Month.number, monthLength]; omega

/-- The days of two calendars that give February different lengths differ in February only. -/
theorem lengthByNumber_differ_iff (february february' n d : Nat) :
    ¬ ((1 ≤ n ∧ n ≤ 12 ∧ 1 ≤ d ∧ d ≤ lengthByNumber february n) ↔
        (1 ≤ n ∧ n ≤ 12 ∧ 1 ≤ d ∧ d ≤ lengthByNumber february' n)) ↔
      n = 2 ∧ 1 ≤ d ∧ ¬ (d ≤ february ↔ d ≤ february') := by
  by_cases hn : n = 2 <;> simp [lengthByNumber, hn]

/-! ## The leap rule by the year offset -/

/-- R75: the low two bits of the offset are its remainder by 4. -/
theorem lowTwoBits_eq_zero_iff (o : BitVec 7) : o.extractLsb' 0 2 = 0#2 ↔ o.toNat % 4 = 0 := by
  rw [BitVec.toNat_eq, BitVec.extractLsb'_toNat]
  rfl

/-- R75: the two centuries among the years. -/
theorem century_iff (o : BitVec 7) : (1980 + o.toNat) % 100 = 0 ↔ o = 20#7 ∨ o = 120#7 := by
  have ho := o.isLt
  simp only [BitVec.toNat_eq, BitVec.toNat_ofNat]
  omega

/-- R75: of the years divisible by 4, only 2100 is not leap. -/
theorem isLeap_offset_iff (o : BitVec 7) : isLeap (1980 + o.toNat) = true ↔ o.toNat % 4 = 0 ∧ o ≠ 120#7 := by
  have ho := o.isLt
  simp only [isLeap_iff, ne_eq, BitVec.toNat_eq, BitVec.toNat_ofNat]
  omega

/-- R75: the one day that "divisible by 4" alone would add is 29 February of the offset 120. -/
theorem februaries_differ_iff (o : BitVec 7) (d : Nat) :
    ¬ (d ≤ monthLength (1980 + o.toNat) .february ↔ d ≤ if (1980 + o.toNat) % 4 = 0 then 29 else 28) ↔
      o = 120#7 ∧ d = 29 := by
  by_cases ho : o = 120#7
  · have hlength : monthLength (1980 + o.toNat) .february = 28 := by rw [ho]; rfl
    have hfour : (1980 + o.toNat) % 4 = 0 := by rw [ho]; rfl
    rw [hlength, if_pos hfour]
    simp only [ho, true_and]
    omega
  · have hfour : (1980 + o.toNat) % 4 = o.toNat % 4 := by omega
    simp [monthLength, isLeap_offset_iff, ho, hfour]

/-! ## From the fields to the value -/

/-- R73: under a month, the calendar check decides the outcome. -/
theorem dateResult_of_month {o : BitVec 7} {mr : BitVec 4} {d : BitVec 5} {m : Month}
    (hm : Month.ofNumber? mr.toNat = some m) :
    dateResult o mr d =
      if 1 ≤ d.toNat ∧ d.toNat ≤ monthLength (yearOf o) m then some ⟨yearOf o, m.number, d.toNat⟩ else none := by
  obtain ⟨k, hk, hday, hlength, hvalue⟩ | ⟨hno, hnone⟩ := dateResult_cases o mr d
  · cases hm.symm.trans hk
    rw [hvalue, if_pos ⟨hday, hlength⟩, Month.ofNumber_some hm]
  · rw [hnone, if_neg]
    have := hno m hm
    omega

/-- R70: without a month there is no date. -/
theorem dateResult_of_noMonth {o : BitVec 7} {mr : BitVec 4} {d : BitVec 5} (hm : Month.ofNumber? mr.toNat = none) :
    dateResult o mr d = none := by
  rw [dateResult_eq_none_iff, hm]
  simp

/-- R67 in one condition on the numbers of the fields. -/
theorem dateResult_eq_ite (o : BitVec 7) (mr : BitVec 4) (d : BitVec 5) :
    dateResult o mr d =
      if 1 ≤ mr.toNat ∧ mr.toNat ≤ 12 ∧ 1 ≤ d.toNat ∧
        d.toNat ≤ lengthByNumber (monthLength (1980 + o.toNat) .february) mr.toNat
      then some ⟨yearOf o, mr.toNat, d.toNat⟩ else none := by
  cases hm : Month.ofNumber? mr.toNat with
  | none =>
    have hout := Month.ofNumber_none.mp hm
    rw [dateResult_of_noMonth hm, if_neg (by omega)]
  | some m =>
    obtain ⟨hlow, hhigh⟩ := m.number_range
    rw [dateResult_of_month hm, monthLength_eq_lengthByNumber, yearOf_eq, ← Month.ofNumber_some hm]
    simp only [hlow, hhigh, true_and]

/-- The date unit's value is that of the fields a word was made of (R43, R52). -/
theorem decodeDate_dateWord (o : BitVec 7) (m : BitVec 4) (d : BitVec 5) :
    decodeDate (dateWord o m d) = dateResult o m d := by
  obtain ⟨ho, hm, hd⟩ := fields_dateWord o m d
  rw [decodeDate, ho, hm, hd]

/-- R73 on a word's shifts and masks. -/
theorem decodeDate_of_month {w : Word} {m : Month} (hm : Month.ofNumber? ((w.toNat >>> 5) &&& 0x0F) = some m) :
    decodeDate w =
      if 1 ≤ w.toNat &&& 0x1F ∧ w.toNat &&& 0x1F ≤ monthLength (1980 + ((w.toNat >>> 9) &&& 0x7F)) m then
        some ⟨1980 + ((w.toNat >>> 9) &&& 0x7F), m.number, w.toNat &&& 0x1F⟩
      else none := by
  rw [← monthField_eq_shift_and_mask] at hm
  rw [decodeDate, dateResult_of_month hm, yearOf_eq, yearOffsetField_eq_shift_and_mask, dayField_eq_mask]

/-- R70 on a word's shifts and masks. -/
theorem decodeDate_of_noMonth {w : Word} (hm : Month.ofNumber? ((w.toNat >>> 5) &&& 0x0F) = none) :
    decodeDate w = none := by
  rw [← monthField_eq_shift_and_mask] at hm
  exact dateResult_of_noMonth hm

/-- R67 on a word's shifts and masks: the words with a date. -/
theorem decodeDate_isSome_iff (w : Word) :
    (decodeDate w).isSome = true ↔
      1 ≤ (w.toNat >>> 5) &&& 0x0F ∧ (w.toNat >>> 5) &&& 0x0F ≤ 12 ∧ 1 ≤ w.toNat &&& 0x1F ∧
        w.toNat &&& 0x1F ≤
          lengthByNumber (monthLength (1980 + ((w.toNat >>> 9) &&& 0x7F)) .february) ((w.toNat >>> 5) &&& 0x0F) := by
  rw [decodeDate, dateResult_eq_ite, Option.isSome_ite, yearOffsetField_eq_shift_and_mask,
    monthField_eq_shift_and_mask, dayField_eq_mask]

/-- R77: a day of 1 or more under a month number of 1 to 12 is rejected exactly when it is listed. -/
theorem dateResult_eq_none_iff_impossible {o : BitVec 7} {mr : BitVec 4} {d : BitVec 5} (hlow : 1 ≤ mr.toNat)
    (hhigh : mr.toNat ≤ 12) (hday : 1 ≤ d.toNat) :
    dateResult o mr d = none ↔
      (mr.toNat, d.toNat) ∈ [(2, 30), (2, 31), (4, 31), (6, 31), (9, 31), (11, 31)] ∨
      ((mr.toNat, d.toNat) = (2, 29) ∧ isLeap (1980 + o.toNat) = false) := by
  cases hm : Month.ofNumber? mr.toNat with
  | none =>
    have hout := Month.ofNumber_none.mp hm
    omega
  | some m =>
    rw [dateResult_eq_none_iff, ← Month.ofNumber_some hm, ← monthLength_lt_iff_impossible m d.isLt, yearOf_eq,
      Month.ofNumber_number]
    simp only [Option.some.injEq, forall_eq']
    omega

/-! ## From the value back to the word -/

/-- R78: a valid date is its word's fields. -/
theorem eq_fields_of_decodeDate_eq_some {w : Word} {v : DateValue} (hv : decodeDate w = some v) :
    v = ⟨1980 + (yearOffsetField w).toNat, (monthField w).toNat, (dayField w).toNat⟩ := by
  rw [decodeDate] at hv
  obtain ⟨-, -, -, -, hvalue⟩ | ⟨-, hnone⟩ := dateResult_cases (yearOffsetField w) (monthField w) (dayField w)
  · exact Option.some.inj (hv.symm.trans hvalue)
  · cases hnone.symm.trans hv

/-- R78: DATEWORD recovers the word from its value. -/
theorem dateWord_of_decodeDate_eq_some {w : Word} {v : DateValue} (hv : decodeDate w = some v) :
    dateWord (BitVec.ofNat 7 (v.year - 1980)) (BitVec.ofNat 4 v.month) (BitVec.ofNat 5 v.day) = w := by
  simp only [eq_fields_of_decodeDate_eq_some hv, Nat.add_sub_cancel_left, BitVec.ofNat_toNat, BitVec.setWidth_eq,
    dateWord_fields]

/-- R78: words with one date value are one word. -/
theorem decodeDate_injective_of_eq_some {w w' : Word} {v : DateValue} (hv : decodeDate w = some v)
    (hv' : decodeDate w' = some v) : w = w' :=
  (dateWord_of_decodeDate_eq_some hv).symm.trans (dateWord_of_decodeDate_eq_some hv')

/-- R43: a word is made of its fields and of no others. -/
theorem eq_dateWord_iff {w : Word} {o : BitVec 7} {m : BitVec 4} {d : BitVec 5} :
    w = dateWord o m d ↔ yearOffsetField w = o ∧ monthField w = m ∧ dayField w = d := by
  constructor
  · rintro rfl
    exact fields_dateWord o m d
  · rintro ⟨rfl, rfl, rfl⟩
    exact (dateWord_fields w).symm

/-! ## What the ports show -/

/-- Under `date_valid` = 1 the data ports are the word's value (R13, R110). -/
theorem decodeDate_of_settle_dateValid {s : State} (h : (settle s).dateValid = 1#1) :
    decodeDate s.dosDate = some ⟨(settle s).year.toNat, (settle s).month.toNat, (settle s).day.toNat⟩ := by
  rw [← settle_dateView, State.dateView, underValid, if_pos h]

/-- R69, R72: a valid year port is the offset plus 1980. -/
theorem settle_year_of_valid {s : State} (h : (settle s).dateValid = 1#1) :
    (settle s).year.toNat = 1980 + (yearOffsetField s.dosDate).toNat :=
  congrArg DateValue.year (eq_fields_of_decodeDate_eq_some (decodeDate_of_settle_dateValid h))

/-- A presented date word shows its outcome on the date unit, after any history (R103). -/
@[simp] theorem present_date_dateView (s : State) (w : Word) :
    (s.present ⟨.dosDateDecoder, w⟩).dateView = decodeDate w := by
  rw [present_date, settle_dateView]

/-- Evaluating a date word shows its outcome on the date unit, after any history (R17, R103). -/
theorem evaluate_date_shows {w : Word} {r : Option DateValue} (h : decodeDate w = r) (s : State) :
    ∃ t, evaluate s ⟨.dosDateDecoder, w⟩ = .next t ∧ t.dateView = r :=
  ⟨_, evaluate_eq s _, (present_date_dateView s w).trans h⟩

/-! ## The statements -/

/-- Settles O16: DDATE drives the outcome of its fields, which is a date under R67's condition and "no value" without
it. -/
theorem ddateCompletesDrivingItsPorts : Obligations.DdateCompletesDrivingItsPorts := by
  intro o m d s year length
  rw [exec_ddate, dateResult_eq_ite, monthLength_february]
  by_cases hdate : 1 ≤ m.toNat ∧ m.toNat ≤ 12 ∧ 1 ≤ d.toNat ∧ d.toNat ≤ length
  · rw [if_pos (by exact hdate), driveDate_some, zext16_yearOf, zext16_toNat_eq_setWidth, zext16_toNat_eq_setWidth]
    exact (congrArg Host.Outcome.next (if_pos hdate)).symm
  · rw [if_neg (by exact hdate), driveDate_none]
    exact (congrArg Host.Outcome.next (if_neg hdate)).symm

/-- Settles O25: a step shows the word's year, which is the offset plus 1980; the first of January of a year has its
offset. -/
theorem yearIsOffsetPlus1980ForEveryOffset : Obligations.YearIsOffsetPlus1980ForEveryOffset := by
  refine ⟨fun s => ⟨settle s, step_eq s, fun hvalid => ?year⟩, fun o => ?january⟩
  case year =>
    have hyear := settle_year_of_valid hvalid
    have hoffset := (yearOffsetField s.dosDate).isLt
    exact ⟨yearOffsetField_eq_shift_and_mask _ ▸ hyear, by omega, by omega,
      extractLsb'_eq_zero_of_toNat_lt (by omega)⟩
  case january =>
    have hoffset := (fields_dateWord o 1#4 1#5).1
    obtain ⟨v, hv⟩ := Option.isSome_iff_exists.mp (decodeDate_firstOfJanuary_isSome o)
    refine ⟨_, v, ?_, hv, ?_⟩
    · rw [← yearOffsetField_eq_shift_and_mask, hoffset]
    · rw [eq_fields_of_decodeDate_eq_some hv, hoffset]

/-- Settles O26: a step shows the word's outcome, which the calendar check decides where the fields name a month and a
day. -/
theorem calendarCheckDecidesTheDate : Obligations.CalendarCheckDecidesTheDate := by
  refine ⟨?_, fun y y' m hm => monthLength_eq_of_ne_february hm y y'⟩
  intro s m year month day hm hday
  refine ⟨settle s, step_eq s, ?_⟩
  have hmonth : Month.ofNumber? month = some m := hm ▸ Month.ofNumber_number m
  rw [settle_dateView, decodeDate_of_month hmonth, hm]
  by_cases hlong : day > monthLength year m
  · rw [if_pos hlong, if_neg fun hlegal => absurd hlegal.2 (Nat.not_le_of_lt hlong)]
  · rw [if_neg hlong, if_pos ⟨hday, Nat.le_of_not_lt hlong⟩]

/-- Settles O27: the value is the fields, which DATEWORD puts together again; a value that two words share is put
together to one word. -/
theorem validDateIsTheWordsFields : Obligations.ValidDateIsTheWordsFields := by
  refine ⟨fun w v hv => ?fields, fun w m hm hday hlength => ?converse, fun w w' hsome heq => ?injective⟩
  case fields =>
    obtain ⟨hmin, hmax, m, hnum, hday, hlength⟩ := dateResult_some_legal hv
    obtain ⟨hlow, hhigh⟩ := hnum ▸ m.number_range
    have hfields := eq_fields_of_decodeDate_eq_some hv
    rw [yearOffsetField_eq_shift_and_mask, monthField_eq_shift_and_mask, dayField_eq_mask] at hfields
    have hyear := congrArg DateValue.year hfields
    exact ⟨Nat.sub_eq_of_eq_add' hyear, congrArg DateValue.month hfields, congrArg DateValue.day hfields, hmin, hmax,
      hlow, hhigh, ⟨m, hnum, hday, hlength⟩, dateWord_of_decodeDate_eq_some hv⟩
  case converse =>
    rw [decodeDate_of_month (hm ▸ Month.ofNumber_number m), if_pos ⟨hday, hlength⟩]
    rfl
  case injective =>
    obtain ⟨v, hv⟩ := Option.isSome_iff_exists.mp hsome
    exact decodeDate_injective_of_eq_some hv (heq.symm.trans hv)

/-- Settles O29: among 1980 to 2107 the century rule takes out the offset 120 alone, so that of all words only
29 February 2100 is judged otherwise. -/
theorem leapRuleInTermsOfTheField : Obligations.LeapRuleInTermsOfTheField := by
  refine ⟨fun o => ⟨by omega, BitVec.extractLsb'_toNat .., ?leap⟩, century_iff, by decide, by decide, by decide,
    fun w => ?word, by decide⟩
  case leap => rw [isLeap_offset_iff, lowTwoBits_eq_zero_iff]
  case word =>
    have hword : 0xF05D#16 = dateWord 120#7 2#4 29#5 := by decide
    rw [decodeDate_isSome_iff, ← yearOffsetField_eq_shift_and_mask, hword, eq_dateWord_iff]
    refine (lengthByNumber_differ_iff _ _ _ _).trans ?_
    rw [februaries_differ_iff, ← monthField_eq_shift_and_mask, ← dayField_eq_mask]
    simp only [BitVec.toNat_eq, BitVec.toNat_ofNat]
    omega

/-- Settles O31: each word is answered by presenting it, and its date is rejected exactly when it is listed. -/
theorem impossibleDatesAreRejected : Obligations.ImpossibleDatesAreRejected := by
  refine fun s o m d hlow hhigh hday => ⟨_, evaluate_eq s _, ?_⟩
  rw [← dateView_eq_none, present_date_dateView, decodeDate_dateWord,
    dateResult_eq_none_iff_impossible hlow hhigh hday]

/-- Settles O32: without a month there is no date, and with one the calendar check decides, whether or not the word is
zero. -/
theorem zeroTestIsImpliedByFieldTests : Obligations.ZeroTestIsImpliedByFieldTests := by
  refine ⟨by decide, by decide, fun w => ?_, by rw [decodeTime_zero]; rfl, decodeDate_of_noMonth rfl⟩
  split
  next hm => exact decodeDate_of_noMonth hm
  next m hm => exact decodeDate_of_month hm

/-- Settles O28: divisibility is a remainder of 0. -/
theorem leapYearIsFullGregorianRule : Obligations.LeapYearIsFullGregorianRule := by
  refine ⟨fun y => ?_, by decide, by decide, by decide, by decide⟩
  simp only [isLeap_iff, Nat.dvd_iff_mod_eq_zero, ne_eq]

/-- Settles O30: the table is read off number by number. -/
theorem monthLengthsFollowTable : Obligations.MonthLengthsFollowTable :=
  ⟨fun _ => rfl, Month.ofNumber_number⟩

/-- Settles O33: each word's outcome is on the ports after any history. -/
theorem leapDayWordsEvaluateAsCorrected : Obligations.LeapDayWordsEvaluateAsCorrected := fun s =>
  ⟨evaluate_date_shows (by decide) s, evaluate_date_shows (by decide) s, evaluate_date_shows (by decide) s,
    evaluate_date_shows (by decide) s, evaluate_date_shows (by decide) s, evaluate_date_shows (by decide) s,
    evaluate_date_shows (by decide) s⟩

end Sys2Proof.Machine

/-! # The causes of "no value"

Rules that tie the cause labels of R86 to the outcomes of the two units, and the statement that they are complete (O36). -/

namespace Sys2Proof.Machine

/-- R86, R92: a line has a cause exactly when one of its unit's causes applies to its word. -/
theorem causesOfLine_ne_nil_iff (st : Stimulus) :
    causesOfLine st ≠ [] ↔ ∃ c ∈ causesOf st.unit, c.applies st.word = true := by
  rw [causesOfLine, Ne, List.filter_eq_nil_iff]
  push Not
  rfl

/-- R86: the length cause applies exactly when the month is one and the day is past its end. -/
theorem applies_dDaylen_iff (w : Word) :
    Cause.applies w .dDaylen = true ↔
      ∃ m : Month, Month.ofNumber? (monthField w).toNat = some m ∧
        monthLength (yearOf (yearOffsetField w)) m < (dayField w).toNat := by
  rw [Cause.applies]
  cases Month.ofNumber? (monthField w).toNat with
  | none => simp
  | some m => simp

/-- R86 for DTIME: the three causes are the three fields above their limits. -/
theorem causesOfLine_time_ne_nil_iff (w : Word) :
    causesOfLine ⟨.dosTimeDecoder, w⟩ ≠ [] ↔
      23 < (hoursField w).toNat ∨ 59 < (minutesField w).toNat ∨ 29 < (twoSecField w).toNat := by
  simp [causesOfLine_ne_nil_iff, causesOf, Cause.applies]

/-- R86 for DDATE: the four causes on the word and its fields. -/
theorem causesOfLine_date_ne_nil_iff (w : Word) :
    causesOfLine ⟨.dosDateDecoder, w⟩ ≠ [] ↔
      w = 0x0000#16 ∨ Month.ofNumber? (monthField w).toNat = none ∨ (dayField w).toNat = 0 ∨
        ∃ m : Month, Month.ofNumber? (monthField w).toNat = some m ∧
          monthLength (yearOf (yearOffsetField w)) m < (dayField w).toNat := by
  rw [← applies_dDaylen_iff, Month.ofNumber_none, causesOfLine_ne_nil_iff]
  simp [causesOf, Cause.applies]

/-- Settles O36: a time is rejected by its three field tests, which are the three causes; a date is rejected for want of
a month, or under a month by its day, and the zero word has no month. -/
theorem noValueExactlyWhenACauseApplies : Obligations.NoValueExactlyWhenACauseApplies := by
  refine ⟨fun w => ?time, fun w => ?date, by decide, by decide⟩
  case time => rw [causesOfLine_time_ne_nil_iff, decodeTime, timeResult_eq_none_iff]
  case date =>
    have hzero : w = 0x0000#16 → Month.ofNumber? (monthField w).toNat = none := by
      rintro rfl
      rfl
    rw [causesOfLine_date_ne_nil_iff, decodeDate, dateResult_eq_none_iff]
    cases hm : Month.ofNumber? (monthField w).toNat with
    | none => simp
    | some m =>
      have hword : w ≠ 0x0000#16 := fun h => by simp [hzero h] at hm
      simp [hword]

end Sys2Proof.Machine
